-- ==== Sys2Proof/Word.lean ====
section
/-! DEFINITION. The bit widths of GF256-SSC: bytes (field elements and buffer elements), half-width
configuration values and 32-bit words (00_scope.md R5, R6; 20_memory.md R61). -/

namespace Sys2Proof

/-- A field element, a buffer byte, or one operand field of a command word (R92, R120). -/
abbrev Byte := BitVec 8

/-- The 16-bit values of CFG_N, CFG_K and CFG_P (R29, R30, R32). -/
abbrev Half := BitVec 16

/-- A register, a command word, a bus data word (R22, R61, R90). -/
abbrev Word := BitVec 32

/-- A reduction polynomial of degree 8: nine bits, bit 8 set (R5, R122). -/
abbrev Poly := BitVec 9

end Sys2Proof
end

