-- ==== Sys2Proof/Syntax.lean ====
section
/-! DEFINITION. The twelve commands of command-set version 1 (30_encoding.md R93), one constructor per row
of spec/opcode_table.json, their formats (R91) and the pseudo-instructions (R98). Operands are the 8-bit
fields themselves (R92), so the type alone bounds them. -/

namespace Sys2Proof

/-- A command (R93). Operand names are the table's. -/
inductive Instr where
  | nop
  | gmul (a b : Byte)
  | gdiv (a b : Byte)
  | ginv (x : Byte)
  | eval (ra rb n : Byte)
  | heval (ra rb n : Byte)
  | solve (d r c : Byte)
  | splitInit
  | splitByte (s : Byte)
  | combineInit
  | combineByte
  | abort
  deriving DecidableEq, Repr

/-- The four formats, by the operand fields they use (R91). -/
inductive Format where
  | f0
  | f1
  | f2
  | f3
  deriving DecidableEq, Repr

/-- The three operand fields of a command word (R90). -/
structure Operands where
  a : Byte
  b : Byte
  c : Byte
  deriving DecidableEq, Repr

/-- Each command's format (R93). -/
def Instr.format : Instr → Format
  | .nop => .f0
  | .gmul _ _ => .f2
  | .gdiv _ _ => .f2
  | .ginv _ => .f1
  | .eval _ _ _ => .f3
  | .heval _ _ _ => .f3
  | .solve _ _ _ => .f3
  | .splitInit => .f0
  | .splitByte _ => .f1
  | .combineInit => .f0
  | .combineByte => .f0
  | .abort => .f0

/-- Each command's operand fields in field order, a field it does not use being 0 (R91, R93). -/
def Instr.operands : Instr → Operands
  | .nop => ⟨0, 0, 0⟩
  | .gmul a b => ⟨a, b, 0⟩
  | .gdiv a b => ⟨a, b, 0⟩
  | .ginv x => ⟨x, 0, 0⟩
  | .eval ra rb n => ⟨ra, rb, n⟩
  | .heval ra rb n => ⟨ra, rb, n⟩
  | .solve d r c => ⟨d, r, c⟩
  | .splitInit => ⟨0, 0, 0⟩
  | .splitByte s => ⟨s, 0, 0⟩
  | .combineInit => ⟨0, 0, 0⟩
  | .combineByte => ⟨0, 0, 0⟩
  | .abort => ⟨0, 0, 0⟩

/-- Pseudo-instruction `GSQR a` (R98). -/
def Instr.gsqr (a : Byte) : Instr := .gmul a a

/-- Pseudo-instruction `GMOV a` (R98). -/
def Instr.gmov (a : Byte) : Instr := .gmul a 1

/-- Pseudo-instruction `SOLVEN d` (R98). -/
def Instr.solven (d : Byte) : Instr := .solve d d d

/-- Pseudo-instruction `DOTSQ r, n` (R98). -/
def Instr.dotsq (r n : Byte) : Instr := .eval r r n

end Sys2Proof
end

