-- ==== Sys2Proof/WellFormed.lean ====
section
/-! DEFINITION. Well-formedness of a command: "A field a format does not use is reserved and must be 0"
(30_encoding.md R91, R94). It is a check on a format with three raw operand fields. A term of `Instr` holds
only the fields its command uses, so every one of them passes it (`Sys2Proof.Laws.instr_wellFormed`). -/

namespace Sys2Proof

/-- The reserved fields of the format are 0: A, B and C for F0, B and C for F1, C for F2, none for F3. -/
def Format.reservedZero : Format → Operands → Bool
  | .f0, o => o.a == 0 && o.b == 0 && o.c == 0
  | .f1, o => o.b == 0 && o.c == 0
  | .f2, o => o.c == 0
  | .f3, _ => true

/-- A command whose reserved operand fields are 0. -/
def Instr.wellFormed (i : Instr) : Bool := i.format.reservedZero i.operands

end Sys2Proof
end

