-- ==== Sys2Proof/Decode.lean ====
section
/-! DEFINITION. Decoding a command word (30_encoding.md R90 to R96), total on 32-bit words and refusing by
name, and after it the encoder, written from the same table of rule R93. -/

namespace Sys2Proof

/-- Why a word is no command (R94). -/
inductive DecodeError where
  /-- the opcode is not in the table of R93 -/
  | opcode (op : Byte)
  /-- the opcode is listed and a reserved field is not 0 -/
  | rsvdField (op : Byte)
  deriving DecidableEq, Repr

/-- What decoding a word gives. -/
inductive Decoded where
  | instr (i : Instr)
  | illegal (e : DecodeError)
  deriving DecidableEq, Repr

/-- Bits [31:24] (R90). -/
def opField (w : Word) : Byte := w.extractLsb' 24 8

/-- Bits [23:16], [15:8] and [7:0] (R90). -/
def operandFields (w : Word) : Operands :=
  ⟨w.extractLsb' 16 8, w.extractLsb' 8 8, w.extractLsb' 0 8⟩

/-- One row of the opcode map (R93). -/
structure OpcodeRow where
  op : Byte
  mnemonic : String
  format : Format
  build : Operands → Instr

/-- The opcode map (R93), in its order. -/
def opcodeTable : List OpcodeRow :=
  [ ⟨0x00, "NOP", .f0, fun _ => .nop⟩,
    ⟨0x01, "GMUL", .f2, fun o => .gmul o.a o.b⟩,
    ⟨0x02, "GDIV", .f2, fun o => .gdiv o.a o.b⟩,
    ⟨0x03, "GINV", .f1, fun o => .ginv o.a⟩,
    ⟨0x10, "EVAL", .f3, fun o => .eval o.a o.b o.c⟩,
    ⟨0x11, "HEVAL", .f3, fun o => .heval o.a o.b o.c⟩,
    ⟨0x12, "SOLVE", .f3, fun o => .solve o.a o.b o.c⟩,
    ⟨0x20, "SPLIT_INIT", .f0, fun _ => .splitInit⟩,
    ⟨0x21, "SPLIT_BYTE", .f1, fun o => .splitByte o.a⟩,
    ⟨0x30, "COMBINE_INIT", .f0, fun _ => .combineInit⟩,
    ⟨0x31, "COMBINE_BYTE", .f0, fun _ => .combineByte⟩,
    ⟨0x3F, "ABORT", .f0, fun _ => .abort⟩ ]

/-- `Decode(w)` of R94: OPCODE is reported before RSVD_FIELD. -/
def decode (w : Word) : Decoded :=
  match opcodeTable.find? (fun r => r.op == opField w) with
  | none => .illegal (.opcode (opField w))
  | some r =>
    if r.format.reservedZero (operandFields w) then .instr (r.build (operandFields w))
    else .illegal (.rsvdField (opField w))

/-- Each command's opcode (R93). -/
def Instr.opcode : Instr → Byte
  | .nop => 0x00
  | .gmul _ _ => 0x01
  | .gdiv _ _ => 0x02
  | .ginv _ => 0x03
  | .eval _ _ _ => 0x10
  | .heval _ _ _ => 0x11
  | .solve _ _ _ => 0x12
  | .splitInit => 0x20
  | .splitByte _ => 0x21
  | .combineInit => 0x30
  | .combineByte => 0x31
  | .abort => 0x3F

/-- The word of a command: OP, A, B, C from the high byte down (R90). -/
def encode (i : Instr) : Word := i.opcode ++ i.operands.a ++ i.operands.b ++ i.operands.c

/-- The mask of a format: the bits every word of the format fixes (R93). -/
def Format.mask : Format → Word
  | .f0 => 0xFFFFFFFF
  | .f1 => 0xFF00FFFF
  | .f2 => 0xFF0000FF
  | .f3 => 0xFF000000

/-- The instruction a table word decodes to, if any. A command is one 32-bit word written to CMD as a
whole (R26, R96), so bit n of the table is bit n of the word. -/
def decodeTableWord (nbits w : Nat) : Option Instr :=
  if nbits ≤ 32 then
    match decode (BitVec.ofNat 32 (w % 2 ^ nbits)) with
    | .instr i => some i
    | .illegal _ => none
  else none

end Sys2Proof
end

