-- ==== Sys2Proof/Config.lean ====
section
/-! DEFINITION. What is fixed for one machine, and the free values: values the spec gives no law for.
A free value is an opaque constant, so no proof can depend on what it is. -/

namespace Sys2Proof

/-- One answer of the random source to one request (60_exceptions.md R224). -/
inductive RngAnswer where
  /-- the source delivered the byte `v` -/
  | byte (v : Byte)
  /-- the source is exhausted or in error -/
  | fail
  deriving DecidableEq, Repr, Inhabited

/-- The spec's default reduction polynomial, x^8 + x^4 + x^3 + x + 1 (R5, R122, D2).
The polynomial in force is the state's `poly`, for which this is the value at `State.reset`. -/
def Config.polyDefault : Poly := 0x11B

/-- The 30 legal reduction polynomials (R122). -/
def Config.legalPolys : List Poly :=
  [0x11B, 0x11D, 0x12B, 0x12D, 0x139, 0x13F, 0x14D, 0x15F, 0x163, 0x165] ++
  [0x169, 0x171, 0x177, 0x17B, 0x187, 0x18B, 0x18D, 0x19F, 0x1A3, 0x1A9] ++
  [0x1B1, 0x1BD, 0x1C3, 0x1CF, 0x1D7, 0x1DD, 0x1E7, 0x1F3, 0x1F5, 0x1F9]

/-- `p` is a legal configuration (R122: "A reducible POLY is not a legal configuration"). -/
def Config.legalPoly (p : Poly) : Bool := Config.legalPolys.contains p

/-- FREE VALUE (R46, R251; log entry 1). What the buffer byte at window offset `a` holds while nothing
has written it since draw number `gen` of that buffer's contents. -/
opaque Config.unwritten (gen : Nat) (a : Nat) : Byte

/-- FREE VALUE (R81; log entry 4). The data of the `n`-th read of MAT, CONST or ROWLEN made while BUSY = 1. -/
opaque Config.busyRead (n : Nat) : Word

/-- FREE VALUE (R224; log entry 3). The random source's answer to request number `n`, where the state
lists no answer for it. -/
opaque Config.rngAnswer (n : Nat) : RngAnswer

/-- OPEN PARAMETER (R5, R60, D5; log entry 8). The platform address of offset 0 of the window. -/
opaque Config.base : Nat

/-- The size of the window in bytes (R60). -/
def Config.windowBytes : Nat := 0x20000

end Sys2Proof
end

