-- ==== Sys2Proof/Machine/State.lean ====
section
/-! DEFINITION. The state of the block as plain data (10_state.md R48), the model's own fields for the
block's inputs and its free values, the reasons a step can stop, and the state after a power-on reset
(70_reset_and_hazards.md R250, R251). -/

namespace Sys2Proof.Machine

/-- Why the machine stops with a fault. NOTHING RAISES ONE: every command error of the spec is an error
completion (60_exceptions.md R212) and a BusError answers one host access (20_memory.md R70), and after
either the block goes on. So the type has no constructor, which is safe. -/
inductive Fault
  deriving DecidableEq, Repr

/-- Why an instruction is refused. -/
inductive Refusal where
  /-- Raised by an arm of `exec` whose instruction has no meaning yet, and by nothing else. No arm does. Safe:
  the model stops where the hardware goes on. -/
  | notModelled (mnemonic : String)
  deriving DecidableEq, Repr

/-- The session states (43_codec.md R170). -/
inductive Sess where
  | idle
  | split
  | combine
  deriving DecidableEq, Repr

/-- The fields of the ERR register (10_state.md R28). -/
structure Err where
  ecode : BitVec 4
  sub : Byte
  info : Byte
  deriving DecidableEq, Repr

/-- The causes of an error completion, one per row of 60_exceptions.md R211, with the index its INFO names. -/
inductive Cause where
  | kLow
  | kHigh
  | nHigh
  | nLow
  | secretEmpty
  | partsNone
  | partsFew
  | partsMax
  | lenMismatch (p : Byte)
  | sharesMismatch (p : Byte)
  | dimRows (rows : Byte)
  | dimRowlen (r : Byte)
  | dimConsts (c : Byte)
  | degZero
  | singular (col : Byte)
  | rngFailed (i p : Byte)
  | divZero (a : Byte)
  | invZero
  | opcode (op : Byte)
  | rsvdField (op : Byte)
  | notIdle
  | noSplit
  | noCombine
  deriving DecidableEq, Repr

/-- The widths of a host access (20_memory.md R61). -/
inductive Width where
  | byte
  | half
  | word
  deriving DecidableEq, Repr

/-- What arrives at the block's inputs, in the one order of 20_memory.md R74. `off` is the byte offset
within the window. -/
inductive Event where
  /-- `HostRead(off, n)` -/
  | read (off : Nat) (n : Width)
  /-- `HostWrite(off, n, v)` -/
  | write (off : Nat) (n : Width) (v : Word)
  /-- the completion step takes its turn (70_reset_and_hazards.md R259) -/
  | completion
  /-- the reset input, not at power-on (R250, R251) -/
  | rst
  /-- power is applied again (R250, R251) -/
  | powerOn
  deriving DecidableEq, Repr

/-- The slave port's answer to one host access (20_memory.md R70, R79). -/
inductive BusReply where
  /-- a read's data -/
  | data (v : Word)
  /-- a write accepted by the bus (its effect may still be none, R69, R80) -/
  | done
  /-- BusError -/
  | busError
  deriving DecidableEq, Repr

/-- The buffers MAT, CONST, ROWLEN and OLEN as one byte memory keyed by window offset (R37 to R40, R64).
`cells` lists the bytes written since the last draw, addresses strictly rising; a byte it does not list is
the free value `Config.unwritten` of its buffer's draw number (R46; log entries 1 and 2). -/
structure Memory where
  cells : List Host.Cell
  /-- the model's own: the draw number of MAT, CONST and ROWLEN -/
  bufGen : Nat
  /-- the model's own: the draw number of OLEN -/
  olenGen : Nat
  deriving DecidableEq, Repr

/-- The whole state (R48), then the model's own fields. -/
structure State where
  /-- CTRL.IE (R24) -/
  ie : Bool
  /-- STATUS.DONE (R25) -/
  done : Bool
  /-- STATUS.OVR (R25) -/
  ovr : Bool
  /-- CMD: the last accepted command word (R26) -/
  cmd : Word
  /-- RESULT[7:0] (R27) -/
  result : Byte
  /-- ERR (R28) -/
  err : Err
  /-- CFG_N[15:0] (R29) -/
  cfgN : Half
  /-- CFG_K[15:0] (R30) -/
  cfgK : Half
  /-- CFG_L (R31) -/
  cfgL : Word
  /-- CFG_P[15:0] (R32) -/
  cfgP : Half
  /-- the session state, STATUS.SESS (R43) -/
  sess : Sess
  /-- SESS_J (R33) -/
  sessJ : Word
  /-- SESS_L (R34) -/
  sessL : Word
  /-- SESS_NK.NP (R35) -/
  sessNP : Byte
  /-- SESS_NK.KL (R35) -/
  sessKL : Byte
  /-- the accepted command that has not completed, none exactly when BUSY = 0 (R44) -/
  pending : Option Word
  /-- MAT, CONST, ROWLEN and OLEN (R37 to R40) -/
  mem : Memory
  /-- the configuration POLY (R5, R48) -/
  poly : Poly
  /-- the model's own: the random source's next answers, oldest first (R224; log entry 3) -/
  rng : List RngAnswer
  /-- the model's own: requests made to the random source (R225; log entry 3) -/
  draws : Nat
  /-- the model's own: free values used by reads while BUSY = 1 (R81; log entry 4) -/
  busyReads : Nat
  /-- the model's own: what arrives at the inputs, oldest first (R74, R259; log entry 5) -/
  inputs : List Event
  /-- the model's own: the answer to the access the last step served (R79; log entry 10) -/
  reply : Option BusReply
  deriving DecidableEq, Repr

/-- The state right after power-on (R250, R251): the spec's reset value in every register, no buffer byte
written, POLY at the spec's default, nothing at the inputs. -/
def State.reset : State where
  ie := false
  done := false
  ovr := false
  cmd := 0
  result := 0
  err := ⟨0, 0, 0⟩
  cfgN := 0
  cfgK := 0
  cfgL := 0
  cfgP := 0
  sess := .idle
  sessJ := 0
  sessL := 0
  sessNP := 0
  sessKL := 0
  pending := none
  mem := ⟨[], 0, 0⟩
  poly := Config.polyDefault
  rng := []
  draws := 0
  busyReads := 0
  inputs := []
  reply := none

end Sys2Proof.Machine
end

