-- ==== Sys2Proof/Machine/Flags.lean ====
section
/-! DEFINITION. The flags (10_state.md R25, R42), the words the registers read as, built from their fields
(R24 to R35), the write-1-to-clear bits, and the interrupt output (R45, 60_exceptions.md R219). -/

namespace Sys2Proof.Machine

/-- STATUS.BUSY: 1 exactly while a command is pending (R25, R44). -/
def State.busy (s : State) : Bool := s.pending.isSome

/-- STATUS.ERRF: reads 1 exactly when ERR.ECODE is not 0 (R25). -/
def State.errf (s : State) : Bool := s.err.ecode != 0

/-- The output `irq` = CTRL.IE and STATUS.DONE (R45, R219). -/
def State.irq (s : State) : Bool := s.ie && s.done

/-- STATUS.SESS: 0 IDLE, 1 SPLIT, 2 COMBINE (R25, R170). -/
def sessBits : Sess → BitVec 2
  | .idle => 0
  | .split => 1
  | .combine => 2

/-- The word STATUS reads as (R25). -/
def State.statusWord (s : State) : Word :=
  (0 : BitVec 26) ++ sessBits s.sess ++ BitVec.ofBool s.errf ++ BitVec.ofBool s.ovr ++
    BitVec.ofBool s.done ++ BitVec.ofBool s.busy

/-- The word CTRL reads as (R24). -/
def State.ctrlWord (s : State) : Word := (0 : BitVec 31) ++ BitVec.ofBool s.ie

/-- The word ERR reads as (R28, R212). -/
def Err.word (e : Err) : Word := (0 : BitVec 8) ++ e.info ++ e.sub ++ (0 : BitVec 4) ++ e.ecode

/-- The word SESS_NK reads as (R35). -/
def State.sessNKWord (s : State) : Word := (0 : BitVec 16) ++ s.sessKL ++ s.sessNP

/-- A write of `v` to CTRL: bit 0 is IE, the other bits are ignored (R24). -/
def State.writeCtrl (v : Word) (s : State) : State := { s with ie := v.getLsbD 0 }

/-- A write of `v` to STATUS: a 1 in bit 1 clears DONE and a 1 in bit 2 clears OVR, a 0 leaves the bit
unchanged and every other bit is read-only (R25). -/
def State.writeStatus (v : Word) (s : State) : State :=
  { s with done := s.done && !v.getLsbD 1, ovr := s.ovr && !v.getLsbD 2 }

/-- A host write dropped because BUSY = 1 (20_memory.md R80). -/
def State.setOvr (s : State) : State := { s with ovr := true }

end Sys2Proof.Machine
end

