-- ==== Sys2Proof/Machine/Gf.lean ====
section
/-! DEFINITION. Arithmetic in GF(2^8) modulo the polynomial POLY (41_field.md R120 to R124), and the ROM
INVTAB (10_state.md R41). Addition is XOR of bytes, `^^^` (R120). -/

namespace Sys2Proof.Machine

/-- The 15-bit carry-less product of two bytes: the first loop of `MUL` in R121. -/
def clmul (a b : Byte) : BitVec 15 :=
  [0, 1, 2, 3, 4, 5, 6, 7].foldl
    (fun p i => if b.getLsbD i then p ^^^ (a.setWidth 15 <<< i) else p) 0

/-- One reduction step at bit `i`, for `i` in 8..14: the body of the second loop of `MUL` in R121. -/
def reduceStep (poly : Poly) (p : BitVec 15) (i : Nat) : BitVec 15 :=
  if p.getLsbD i then p ^^^ (poly.setWidth 15 <<< (i - 8)) else p

/-- Reduction of a carry-less product modulo POLY, from bit 14 down to bit 8 (R121). -/
def gfReduce (poly : Poly) (p : BitVec 15) : Byte :=
  ([14, 13, 12, 11, 10, 9, 8].foldl (reduceStep poly) p).setWidth 8

/-- `MUL(a, b)` (R121). -/
def gfMul (poly : Poly) (a b : Byte) : Byte := gfReduce poly (clmul a b)

/-- `x` to the power 2^k, by squaring `k` times. -/
def gfSquares (poly : Poly) (x : Byte) : Nat → Byte
  | 0 => x
  | k + 1 => gfMul poly (gfSquares poly x k) (gfSquares poly x k)

/-- `INV(x)` for `x ≠ 0`, as x^254 (R123), 254 being 2 + 4 + 8 + 16 + 32 + 64 + 128.
DEDUCED for every polynomial and for x = 0 beyond the rule (log entry 12). -/
def gfInv (poly : Poly) (x : Byte) : Byte :=
  [1, 2, 3, 4, 5, 6, 7].foldl (fun acc k => gfMul poly acc (gfSquares poly x k)) 1

/-- `DIV(a, b)` for `b ≠ 0` (R124). -/
def gfDiv (poly : Poly) (a b : Byte) : Byte := gfMul poly a (gfInv poly b)

/-- `INVTAB[x]`, with INVTAB[0] = 0x00 (R41). -/
def invtab (poly : Poly) (x : Byte) : Byte := if x = 0 then 0 else gfInv poly x

end Sys2Proof.Machine
end

