-- ==== Sys2Proof/Machine/Ops.lean ====
section
/-! DEFINITION. The named operations over memory and registers: reading and writing one buffer byte, the
loop of the pseudocode, issuing a command (40_control.md R110), its two ends `Complete(v)` (R111) and
`raise` (60_exceptions.md R212), one draw from the random source (R224), and reset (R250, R251). -/

namespace Sys2Proof.Machine

/-- `for i in 0..n-1: s <- f i s`, running zero times for `n = 0` (00_scope.md R7). -/
def forUp {σ : Type} : Nat → (Nat → σ → σ) → σ → σ
  | 0, _, s => s
  | n + 1, f, s => f n (forUp n f s)

/-! ### The buffers -/

/-- The window offsets of OLEN, 0x00800 .. 0x00BFF (20_memory.md R64). -/
def isOlenAddr (a : Nat) : Bool := decide (0x800 ≤ a) && decide (a < 0xC00)

/-- The window offsets of MAT, CONST and ROWLEN (R64). -/
def isByteBufAddr (a : Nat) : Bool :=
  (decide (0x100 ≤ a) && decide (a < 0x300)) || (decide (0x10000 ≤ a) && decide (a < 0x20000))

/-- The window offsets of the four buffers. -/
def isBufAddr (a : Nat) : Bool := isByteBufAddr a || isOlenAddr a

/-- The byte listed at an address, if one is. -/
def lookupCell : List Host.Cell → Nat → Option Byte
  | [], _ => none
  | c :: rest, a => if c.1 = a then some c.2 else lookupCell rest a

/-- What an unlisted address reads as: the free value of the buffer's current draw (R46). -/
def Memory.unlisted (m : Memory) (a : Nat) : Byte :=
  Config.unwritten (if isOlenAddr a then m.olenGen else m.bufGen) a

/-- The byte at window offset `a`. -/
def Memory.read (m : Memory) (a : Nat) : Byte := (lookupCell m.cells a).getD (m.unlisted a)

/-- Puts a byte at an address of a list whose addresses strictly rise. -/
def putCell : List Host.Cell → Nat → Byte → List Host.Cell
  | [], a, v => [(a, v)]
  | c :: rest, a, v =>
    if a < c.1 then (a, v) :: c :: rest
    else if a = c.1 then (a, v) :: rest
    else c :: putCell rest a v

/-- Writes the byte at window offset `a`. -/
def Memory.write (m : Memory) (a : Nat) (v : Byte) : Memory := { m with cells := putCell m.cells a v }

/-- The canonical form (log entry 2): addresses strictly rise and each is a buffer's. -/
abbrev Memory.wf (m : Memory) : Prop :=
  m.cells.Pairwise (fun x y => x.1 < y.1) ∧ ∀ c ∈ m.cells, isBufAddr c.1 = true

/-- MAT, CONST and ROWLEN hold any values, every byte drawn anew; OLEN is unchanged (R251). -/
def Memory.redrawByteBufs (m : Memory) : Memory :=
  { m with cells := m.cells.filter (fun c => isOlenAddr c.1), bufGen := m.bufGen + 1 }

/-- Every buffer byte drawn anew, as at power-on (R46, R251). -/
def Memory.redrawAll (m : Memory) : Memory := ⟨[], m.bufGen + 1, m.olenGen + 1⟩

/-- Replaces the buffers. -/
def State.setMem (s : State) (m : Memory) : State := { s with mem := m }

/-- Replaces the session state. -/
def State.setSess (s : State) (x : Sess) : State := { s with sess := x }

/-! ### The life of a command -/

/-- Issue of the command word `w` (R110). -/
def State.issue (w : Word) (s : State) : State :=
  { s with cmd := w, done := false, pending := some w }

/-- `Complete(v)` (R111). -/
def State.complete (v : Byte) (s : State) : State :=
  { s with result := v, err := ⟨0, 0, 0⟩, pending := none, done := true }

/-- ECODE, SUB and INFO of each cause (60_exceptions.md R210, R211). -/
def Cause.err : Cause → Err
  | .kLow => ⟨1, 0x01, 0⟩
  | .kHigh => ⟨1, 0x02, 0⟩
  | .nHigh => ⟨1, 0x03, 0⟩
  | .nLow => ⟨1, 0x04, 0⟩
  | .secretEmpty => ⟨1, 0x05, 0⟩
  | .partsNone => ⟨1, 0x06, 0⟩
  | .partsFew => ⟨1, 0x07, 0⟩
  | .partsMax => ⟨1, 0x08, 0⟩
  | .lenMismatch p => ⟨1, 0x09, p⟩
  | .sharesMismatch p => ⟨1, 0x0A, p⟩
  | .dimRows r => ⟨2, 0x01, r⟩
  | .dimRowlen r => ⟨2, 0x02, r⟩
  | .dimConsts c => ⟨2, 0x03, c⟩
  | .degZero => ⟨2, 0x04, 0⟩
  | .singular col => ⟨3, 0x00, col⟩
  | .rngFailed i p => ⟨4, i, p⟩
  | .divZero a => ⟨5, 0x01, a⟩
  | .invZero => ⟨5, 0x02, 0⟩
  | .opcode op => ⟨6, 0x01, op⟩
  | .rsvdField op => ⟨6, 0x02, op⟩
  | .notIdle => ⟨7, 0x01, 0⟩
  | .noSplit => ⟨7, 0x02, 0⟩
  | .noCombine => ⟨7, 0x03, 0⟩

/-- `raise E(sub, info)`: the block's one way of taking an error (R212). It saves no address, goes to no
handler and changes no mode; there is no return operation beside it (R216). -/
def State.raise (c : Cause) (s : State) : State :=
  { s with result := 0, err := c.err, pending := none, done := true }

/-- The end of a session byte: J counts it, and the session closes when J becomes L (R173, R179). -/
def State.advance (s : State) : State :=
  { s with sessJ := s.sessJ + 1, sess := if s.sessJ + 1 = s.sessL then .idle else s.sess }

/-! ### The random source -/

/-- The answer to the `j`-th request from now, from 0 (R224): the one the state lists, else a free value. -/
def State.answer (s : State) (j : Nat) : RngAnswer :=
  (s.rng[j]?).getD (Config.rngAnswer (s.draws + j))

/-- The state after one request. -/
def State.drawn (s : State) : State := { s with rng := s.rng.tail, draws := s.draws + 1 }

/-! ### Reset -/

/-- The reset values of the registers and the session (R250). The buffers, POLY and the random source are
as they were. -/
def State.resetRegs (s : State) : State :=
  { s with ie := false, done := false, ovr := false, cmd := 0, result := 0, err := ⟨0, 0, 0⟩,
           cfgN := 0, cfgK := 0, cfgL := 0, cfgP := 0,
           sess := .idle, sessJ := 0, sessL := 0, sessNP := 0, sessKL := 0, pending := none }

/-- The reset input, not at power-on (R250, R251): the buffers are unchanged if BUSY = 0; if BUSY = 1 the
pending command is discarded and MAT, CONST and ROWLEN are drawn anew. -/
def State.rst (s : State) : State :=
  s.resetRegs.setMem (if s.pending.isSome then s.mem.redrawByteBufs else s.mem)

/-- A reset at power-on (R250, R251): every buffer byte is drawn anew. -/
def State.powerOn (s : State) : State := s.resetRegs.setMem s.mem.redrawAll

end Sys2Proof.Machine
end

