-- ==== Sys2Proof/Machine/Operands.lean ====
section
/-! DEFINITION. The operands a command reads from and writes to the buffers (30_encoding.md R92): elements
of MAT, CONST, ROWLEN and OLEN at their places in the window (20_memory.md R64), and the two vector
functions over MAT rows (42_solver.md R140, R141). -/

namespace Sys2Proof.Machine

/-- The window offset of `MAT[r][c]`. -/
def matAddr (r c : Nat) : Nat := 0x10000 + 256 * r + c

/-- The window offset of `CONST[i]`. -/
def constAddr (i : Nat) : Nat := 0x200 + i

/-- The window offset of `ROWLEN[r]`. -/
def rowlenAddr (r : Nat) : Nat := 0x100 + r

/-- The window offset of the low byte of `OLEN[p]`. -/
def olenAddr (p : Nat) : Nat := 0x800 + 4 * p

/-- `MAT[r][c]` (R37). -/
def Memory.mat (m : Memory) (r c : Nat) : Byte := m.read (matAddr r c)

/-- `MAT[r][c] <- v`. -/
def Memory.setMat (m : Memory) (r c : Nat) (v : Byte) : Memory := m.write (matAddr r c) v

/-- `CONST[i]` (R38). -/
def Memory.const (m : Memory) (i : Nat) : Byte := m.read (constAddr i)

/-- `CONST[i] <- v`. -/
def Memory.setConst (m : Memory) (i : Nat) (v : Byte) : Memory := m.write (constAddr i) v

/-- `ROWLEN[r]` (R39). -/
def Memory.rowlen (m : Memory) (r : Nat) : Byte := m.read (rowlenAddr r)

/-- `ROWLEN[r] <- v`. -/
def Memory.setRowlen (m : Memory) (r : Nat) (v : Byte) : Memory := m.write (rowlenAddr r) v

/-- Bytes to a word, the first byte in bits [7:0] (R62). -/
def wordOfBytes : List Byte → Word
  | [] => 0
  | b :: bs => b.setWidth 32 ||| (wordOfBytes bs <<< 8)

/-- Byte `k` of a word, byte 0 being bits [7:0] (R62). -/
def byteOfWord (v : Word) (k : Nat) : Byte := v.extractLsb' (8 * k) 8

/-- `OLEN[p]`, a whole word (R40, R66). -/
def Memory.olen (m : Memory) (p : Nat) : Word :=
  wordOfBytes ((List.range 4).map (fun k => m.read (olenAddr p + k)))

/-- `DOT(ra, rb, n)` (R140). -/
def dot (poly : Poly) (m : Memory) (ra rb n : Nat) : Byte :=
  forUp n (fun i acc => acc ^^^ gfMul poly (m.mat ra i) (m.mat rb i)) 0

/-- `HDOT(ra, rb, n)` (R141). -/
def hdot (poly : Poly) (m : Memory) (ra rb n : Nat) : Byte :=
  if n = 0 then 0 else dot poly m ra rb (n - 1) ^^^ m.mat rb (n - 1)

end Sys2Proof.Machine
end

