-- ==== Sys2Proof/Machine/Bus.lean ====
section
/-! DEFINITION. The host-bus slave port: the address map (20_memory.md R64), the registers (10_state.md R22 to
R36), and the host accesses with BUSY = 0 and BUSY = 1 (20_memory.md R79 to R81). -/

namespace Sys2Proof.Machine

/-- The registers (R22). -/
inductive Reg where
  | id
  | ctrl
  | status
  | cmd
  | result
  | err
  | cfgN
  | cfgK
  | cfgL
  | cfgP
  | sessJ
  | sessL
  | sessNK
  | reserved
  deriving DecidableEq, Repr

/-- The regions of the window (R64). -/
inductive Region where
  | register (r : Reg)
  | rowlen
  | const
  | invtab
  | olen
  | mat
  | unmapped
  /-- at or above 0x20000: the access does not reach the block -/
  | notDecoded
  deriving DecidableEq, Repr

/-- The register at an offset of the register region (R22, R36). -/
def regAt (off : Nat) : Reg :=
  match off / 4 with
  | 0 => .id
  | 1 => .ctrl
  | 2 => .status
  | 3 => .cmd
  | 4 => .result
  | 5 => .err
  | 6 => .cfgN
  | 7 => .cfgK
  | 8 => .cfgL
  | 9 => .cfgP
  | 10 => .sessJ
  | 11 => .sessL
  | 12 => .sessNK
  | _ => .reserved

/-- `Region(off)` (R64). -/
def regionAt (off : Nat) : Region :=
  if off < 0x100 then .register (regAt off)
  else if off < 0x200 then .rowlen
  else if off < 0x300 then .const
  else if off < 0x400 then .invtab
  else if off < 0x800 then .unmapped
  else if off < 0xC00 then .olen
  else if off < 0x10000 then .unmapped
  else if off < 0x20000 then .mat
  else .notDecoded

/-- The number of bytes of an access (R61). -/
def Width.bytes : Width → Nat
  | .byte => 1
  | .half => 2
  | .word => 4

/-- The regions that accept word accesses only (R65, R66). -/
def Region.wordOnly : Region → Bool
  | .register _ => true
  | .olen => true
  | _ => false

/-- The access checks of R79 that answer BusError: alignment, an unmapped offset, the width. -/
def accessFails (off : Nat) (n : Width) : Bool :=
  off % n.bytes != 0 || regionAt off == .unmapped || ((regionAt off).wordOnly && n != .word)

/-- The offset within the window of a platform address, if the window holds it (R60). -/
def windowOffset (addr : Nat) : Option Nat :=
  if Config.base ≤ addr ∧ addr < Config.base + Config.windowBytes then some (addr - Config.base) else none

/-! ### Reads -/

/-- The data a reply gives a read: 0 with BusError (R63, R68). -/
def BusReply.value : BusReply → Word
  | .data v => v
  | .done => 0
  | .busError => 0

/-- What a register reads as (R22 to R36). -/
def regRead (r : Reg) (s : State) : Word :=
  match r with
  | .id => 0x47463031
  | .ctrl => s.ctrlWord
  | .status => s.statusWord
  | .cmd => s.cmd
  | .result => s.result.setWidth 32
  | .err => s.err.word
  | .cfgN => s.cfgN.setWidth 32
  | .cfgK => s.cfgK.setWidth 32
  | .cfgL => s.cfgL
  | .cfgP => s.cfgP.setWidth 32
  | .sessJ => s.sessJ
  | .sessL => s.sessL
  | .sessNK => s.sessNKWord
  | .reserved => 0

/-- `Byte(o)` of R79: a byte of ROWLEN, CONST, INVTAB, OLEN or MAT. -/
def byteAt (s : State) (o : Nat) : Byte :=
  if regionAt o = .invtab then invtab s.poly (BitVec.ofNat 8 (o - 0x300)) else s.mem.read o

/-- The data of an `n`-byte read of a buffer or INVTAB, little-endian (R62). -/
def bufRead (s : State) (off : Nat) (n : Width) : Word :=
  wordOfBytes ((List.range n.bytes).map (fun k => byteAt s (off + k)))

/-- The low `n` bytes of a word, zero-extended. -/
def lowBytes (n : Width) (v : Word) : Word :=
  match n with
  | .byte => (v.setWidth 8).setWidth 32
  | .half => (v.setWidth 16).setWidth 32
  | .word => v

/-- Puts the slave port's answer. -/
def State.answerWith (r : BusReply) (s : State) : State := { s with reply := some r }

/-- A read of MAT, CONST or ROWLEN: the bytes stored, or any value while BUSY = 1 (R81). -/
def readByteBuf (off : Nat) (n : Width) (s : State) : State :=
  if s.busy then
    { s with busyReads := s.busyReads + 1 }.answerWith (.data (lowBytes n (Config.busyRead s.busyReads)))
  else s.answerWith (.data (bufRead s off n))

/-- `HostRead(off, n)` (R79, R81). An offset the block does not decode gets no answer from it (R64). -/
def hostRead (off : Nat) (n : Width) (s : State) : State :=
  if regionAt off = .notDecoded then s
  else if accessFails off n then s.answerWith .busError
  else match regionAt off with
    | .register r => s.answerWith (.data (regRead r s))
    | .olen => s.answerWith (.data (bufRead s off n))
    | .invtab => s.answerWith (.data (bufRead s off n))
    | .rowlen => readByteBuf off n s
    | .const => readByteBuf off n s
    | .mat => readByteBuf off n s
    | .unmapped => s
    | .notDecoded => s

/-! ### Writes -/

/-- A write that BUSY = 1 drops, setting OVR (R80). -/
def unlessBusy (f : State → State) (s : State) : State := if s.busy then s.setOvr else f s

/-- A word write to a register (R22 to R36, R69, R80). -/
def regWrite (r : Reg) (v : Word) (s : State) : State :=
  match r with
  | .ctrl => s.writeCtrl v
  | .status => s.writeStatus v
  | .cmd => unlessBusy (State.issue v) s
  | .cfgN => unlessBusy (fun t => { t with cfgN := v.setWidth 16 }) s
  | .cfgK => unlessBusy (fun t => { t with cfgK := v.setWidth 16 }) s
  | .cfgL => unlessBusy (fun t => { t with cfgL := v }) s
  | .cfgP => unlessBusy (fun t => { t with cfgP := v.setWidth 16 }) s
  | .id => s
  | .result => s
  | .err => s
  | .sessJ => s
  | .sessL => s
  | .sessNK => s
  | .reserved => s

/-- The bytes of an `n`-byte write, little-endian (R62). -/
def writeBytes (off : Nat) (n : Width) (v : Word) (m : Memory) : Memory :=
  forUp n.bytes (fun k x => x.write (off + k) (byteOfWord v k)) m

/-- A write to MAT, CONST, ROWLEN or OLEN (R66, R67, R80). -/
def bufWrite (off : Nat) (n : Width) (v : Word) (s : State) : State :=
  unlessBusy (fun t => t.setMem (writeBytes off n v t.mem)) s

/-- `HostWrite(off, n, v)` (R79, R80). -/
def hostWrite (off : Nat) (n : Width) (v : Word) (s : State) : State :=
  if regionAt off = .notDecoded then s
  else if accessFails off n then s.answerWith .busError
  else match regionAt off with
    | .register r => (regWrite r v s).answerWith .done
    | .invtab => s.answerWith .done
    | .rowlen => (bufWrite off n v s).answerWith .done
    | .const => (bufWrite off n v s).answerWith .done
    | .olen => (bufWrite off n v s).answerWith .done
    | .mat => (bufWrite off n v s).answerWith .done
    | .unmapped => s
    | .notDecoded => s

end Sys2Proof.Machine
end

