-- ==== Sys2Proof/Machine/Solver.lean ====
section
/-! DEFINITION. The solver unit: the elimination procedure in place over MAT and CONST (42_solver.md R142 to
R148) and the commands EVAL, HEVAL and SOLVE (R140, R141, R149). -/

namespace Sys2Proof.Machine

/-- The lowest `i < n` that satisfies `f`, if any. -/
def lowest (n : Nat) (f : Nat → Bool) : Option Nat := (List.range n).find? f

/-- `CheckDims(D, R, C)`: the first check that fails, in the order of R143. It reads ROWLEN and writes nothing. -/
def checkDims (m : Memory) (d r c : Byte) : Option Cause :=
  if r ≠ d then some (.dimRows r)
  else match lowest r.toNat (fun i => m.rowlen i != d) with
    | some i => some (.dimRowlen (BitVec.ofNat 8 i))
    | none =>
      if c ≠ d then some (.dimConsts c)
      else if d = 0 then some .degZero
      else none

/-- The lowest-numbered row `r` with `col ≤ r ≤ D-1` and `MAT[r][col] ≠ 0` (R144). -/
def pivotRow (m : Memory) (d col : Nat) : Option Nat :=
  lowest d (fun r => decide (col ≤ r) && m.mat r col != 0)

/-- Exchanges `MAT[a][c]` and `MAT[b][c]`. -/
def swapMat (a b c : Nat) (m : Memory) : Memory :=
  (m.setMat a c (m.mat b c)).setMat b c (m.mat a c)

/-- Exchanges `CONST[a]` and `CONST[b]`. -/
def swapConst (a b : Nat) (m : Memory) : Memory :=
  (m.setConst a (m.const b)).setConst b (m.const a)

/-- The exchange of the pivot row with row `col`, in columns 0..D-1 and in CONST (R144). -/
def swapRows (d piv col : Nat) (m : Memory) : Memory :=
  if piv = col then m else swapConst piv col (forUp d (swapMat piv col) m)

/-- `Normalize(D, col)`, the pivot read once before the row changes (R145). -/
def normalize (poly : Poly) (d col : Nat) (m : Memory) : Memory :=
  let pv := m.mat col col
  let m' := forUp d (fun c x => x.setMat col c (gfDiv poly (x.mat col c) pv)) m
  m'.setConst col (gfDiv poly (m'.const col) pv)

/-- Clears column `col` of row `r`: the body of `Eliminate` for one row (R146). -/
def eliminateRow (poly : Poly) (d col r : Nat) (m : Memory) : Memory :=
  let f := m.mat r col
  let m' := forUp d (fun c x => x.setMat r c (x.mat r c ^^^ gfMul poly f (x.mat col c))) m
  m'.setConst r (m'.const r ^^^ gfMul poly f (m'.const col))

/-- `Eliminate(D, col)`: every row but `col`, above and below (R146). -/
def eliminate (poly : Poly) (d col : Nat) (m : Memory) : Memory :=
  forUp d (fun r x => if r = col then x else eliminateRow poly d col r x) m

/-- The end of `SolveCore`: the designated coordinate and the buffers, or the error with the buffers as the
rules left them (R147, R148). -/
inductive SolveEnd where
  | solved (v : Byte) (m : Memory)
  | stopped (c : Cause) (m : Memory)
  deriving DecidableEq, Repr

/-- The columns `col`, `col + 1`, ... of `SolveCore`, as many as the last-but-one argument says (R142). -/
def solveColumns (poly : Poly) (d : Nat) : Nat → Nat → Memory → SolveEnd
  | 0, _, m => .solved (m.const 0) m
  | k + 1, col, m =>
    match pivotRow m d col with
    | none => .stopped (.singular (BitVec.ofNat 8 col)) m
    | some piv =>
      solveColumns poly d k (col + 1)
        (eliminate poly d col (normalize poly d col (swapRows d piv col m)))

/-- `SolveCore(D, R, C)` (R142). -/
def solveCore (poly : Poly) (d r c : Byte) (m : Memory) : SolveEnd :=
  match checkDims m d r c with
  | some e => .stopped e m
  | none => solveColumns poly d.toNat d.toNat 0 m

/-- EVAL (R140). -/
def execEval (ra rb n : Byte) (s : State) : Host.Outcome State Fault Refusal :=
  .next (s.complete (dot s.poly s.mem ra.toNat rb.toNat n.toNat))

/-- HEVAL (R141). -/
def execHeval (ra rb n : Byte) (s : State) : Host.Outcome State Fault Refusal :=
  .next (s.complete (hdot s.poly s.mem ra.toNat rb.toNat n.toNat))

/-- SOLVE (R149). -/
def execSolve (d r c : Byte) (s : State) : Host.Outcome State Fault Refusal :=
  match solveCore s.poly d r c s.mem with
  | .solved v m => .next ((s.setMem m).complete v)
  | .stopped e m => .next ((s.setMem m).raise e)

end Sys2Proof.Machine
end

