-- ==== Sys2Proof/Machine/Codec.lean ====
section
/-! DEFINITION. The Split/Combine coordinator: SPLIT_INIT, SPLIT_BYTE, COMBINE_INIT and COMBINE_BYTE
(43_codec.md R170 to R181). -/

namespace Sys2Proof.Machine

/-! ### Split -/

/-- The five constraints of SPLIT_INIT, in the order they are checked (R171, R172). -/
def splitCheck (n k : Half) (l : Word) : Option Cause :=
  if k.toNat < 2 then some .kLow
  else if 255 < k.toNat then some .kHigh
  else if 255 < n.toNat then some .nHigh
  else if n.toNat < k.toNat then some .nLow
  else if l = 0 then some .secretEmpty
  else none

/-- SPLIT_INIT (R171). -/
def execSplitInit (s : State) : Host.Outcome State Fault Refusal :=
  if s.sess ≠ .idle then .next (s.raise .notIdle)
  else match splitCheck s.cfgN s.cfgK s.cfgL with
    | some e => .next (s.raise e)
    | none =>
      .next ({ s with sessNP := s.cfgN.setWidth 8, sessKL := s.cfgK.setWidth 8, sessL := s.cfgL,
                      sessJ := 0, sess := .split }.complete 0)

/-- The loops of SPLIT_BYTE end with every row written, or at the failed draw of coefficient `i` of party `p`. -/
inductive SplitEnd where
  | rows (s : State)
  | failed (p i : Nat) (s : State)
  deriving DecidableEq, Repr

/-- The draws of coefficients `i`, `i + 1`, ... of party `p`, as many as the last-but-one argument says
(R173, R176). -/
def drawCoeffs (p : Nat) : Nat → Nat → State → SplitEnd
  | _, 0, s => .rows s
  | i, n + 1, s =>
    match s.answer 0 with
    | .fail => .failed p i s.drawn
    | .byte v => drawCoeffs p (i + 1) n (s.drawn.setMem (s.mem.setMat p i v))

/-- The end of party `p`'s row: its constant `MUL(c_0, s)` in column K-1, and its length (R173, R175). -/
def closeRow (poly : Poly) (k : Nat) (v : Byte) (p : Nat) (m : Memory) : Memory :=
  (m.setMat p (k - 1) (gfMul poly (m.mat p 0) v)).setRowlen p (BitVec.ofNat 8 k)

/-- The rows of parties `p`, `p + 1`, ..., as many as the last-but-one argument says (R173). -/
def splitRows (k : Nat) (v : Byte) : Nat → Nat → State → SplitEnd
  | _, 0, s => .rows s
  | p, n + 1, s =>
    match drawCoeffs p 0 (k - 1) s with
    | .failed q i t => .failed q i t
    | .rows t => splitRows k v (p + 1) n (t.setMem (closeRow t.poly k v p t.mem))

/-- The clearing of the output in `RngFailure` (R177). -/
def clearRows (n k : Nat) (m : Memory) : Memory :=
  forUp n (fun q x => (forUp k (fun c y => y.setMat q c 0) x).setRowlen q 0) m

/-- `RngFailure(N, K, p, i)` (R177). -/
def rngFailure (n k p i : Nat) (s : State) : State :=
  ((s.setMem (clearRows n k s.mem)).setSess .idle).raise
    (.rngFailed (BitVec.ofNat 8 i) (BitVec.ofNat 8 p))

/-- SPLIT_BYTE (R173). -/
def execSplitByte (v : Byte) (s : State) : Host.Outcome State Fault Refusal :=
  if s.sess ≠ .split then .next (s.raise .noSplit)
  else match splitRows s.sessKL.toNat v 0 s.sessNP.toNat s with
    | .failed p i t => .next (rngFailure s.sessNP.toNat s.sessKL.toNat p i t)
    | .rows t => .next (t.advance.complete 0)

/-! ### Combine -/

/-- The checks of COMBINE_INIT on the number of parties and the outer lengths (R178). Party 0 never differs
from itself, so the lowest failing party is the lowest of 1..P-1. -/
def combineCheck (m : Memory) (p : Half) : Option Cause :=
  if p = 0 then some .partsNone
  else if p = 1 then some .partsFew
  else if 255 < p.toNat then some .partsMax
  else (lowest p.toNat (fun q => m.olen q != m.olen 0)).map (fun q => .lenMismatch (BitVec.ofNat 8 q))

/-- COMBINE_INIT (R178): shares of outer length 0 are a successful, empty Combine. -/
def execCombineInit (s : State) : Host.Outcome State Fault Refusal :=
  if s.sess ≠ .idle then .next (s.raise .notIdle)
  else match combineCheck s.mem s.cfgP with
    | some e => .next (s.raise e)
    | none =>
      .next ({ s with sessNP := s.cfgP.setWidth 8, sessKL := 0, sessL := s.mem.olen 0, sessJ := 0,
                      sess := if s.mem.olen 0 = 0 then .idle else .combine }.complete 0)

/-- The checks of COMBINE_BYTE before it writes a buffer (R179): SHARES_MISMATCH, ROWS, DEG_ZERO. -/
def sharesCheck (m : Memory) (p : Byte) : Option Cause :=
  match lowest p.toNat (fun q => m.rowlen q != m.rowlen 0) with
  | some q => some (.sharesMismatch (BitVec.ofNat 8 q))
  | none =>
    if p.toNat < (m.rowlen 0).toNat then some (.dimRows p)
    else if m.rowlen 0 = 0 then some .degZero
    else none

/-- `BuildSystem(D)` (R180). -/
def buildSystem (d : Nat) (m : Memory) : Memory :=
  forUp d (fun p x => (x.setConst p (x.mat p (d - 1))).setMat p (d - 1) 1) m

/-- COMBINE_BYTE (R179, R181): the first D supplied rows form the system; every error but E_STATE closes the
session (R170). -/
def execCombineByte (s : State) : Host.Outcome State Fault Refusal :=
  if s.sess ≠ .combine then .next (s.raise .noCombine)
  else match sharesCheck s.mem s.sessNP with
    | some e => .next ((s.setSess .idle).raise e)
    | none =>
      let d := s.mem.rowlen 0
      match solveCore s.poly d d d (buildSystem d.toNat s.mem) with
      | .stopped e m => .next (((s.setMem m).setSess .idle).raise e)
      | .solved v m => .next ((s.setMem m).advance.complete v)

end Sys2Proof.Machine
end

