-- ==== Sys2Proof/Machine/Control.lean ====
section
/-! DEFINITION. The control commands NOP and ABORT (40_control.md R113, R114). -/

namespace Sys2Proof.Machine

/-- NOP (R113). -/
def execNop (s : State) : Host.Outcome State Fault Refusal := .next (s.complete 0)

/-- ABORT (R114): legal in every session state; the counters and the buffers keep their values. -/
def execAbort (s : State) : Host.Outcome State Fault Refusal := .next ((s.setSess .idle).complete 0)

end Sys2Proof.Machine
end

