-- ==== Sys2Proof/Machine/Field.lean ====
section
/-! DEFINITION. The field unit's commands GMUL, GDIV and GINV (41_field.md R128 to R130). -/

namespace Sys2Proof.Machine

/-- GMUL (R128). -/
def execGmul (a b : Byte) (s : State) : Host.Outcome State Fault Refusal :=
  .next (s.complete (gfMul s.poly a b))

/-- GDIV (R129): division by 0 is E_DOMAIN with the dividend as information byte, 0 / 0 too. -/
def execGdiv (a b : Byte) (s : State) : Host.Outcome State Fault Refusal :=
  if b = 0 then .next (s.raise (.divZero a))
  else .next (s.complete (gfMul s.poly a (invtab s.poly b)))

/-- GINV (R130): the inverse of 0 is E_DOMAIN. -/
def execGinv (x : Byte) (s : State) : Host.Outcome State Fault Refusal :=
  if x = 0 then .next (s.raise .invZero)
  else .next (s.complete (invtab s.poly x))

end Sys2Proof.Machine
end

