-- ==== Sys2Proof/Machine/Dispatch.lean ====
section
/-! DEFINITION. The meaning of each command (30_encoding.md R93), one arm per constructor of `Instr`: what
`Execute` runs after `Decode` (40_control.md R112). -/

namespace Sys2Proof.Machine

def exec (i : Instr) (s : State) : Host.Outcome State Fault Refusal :=
  match i with
  | .nop => Sys2Proof.Machine.execNop s
  | .gmul a b => Sys2Proof.Machine.execGmul a b s
  | .gdiv a b => Sys2Proof.Machine.execGdiv a b s
  | .ginv x => Sys2Proof.Machine.execGinv x s
  | .eval ra rb n => Sys2Proof.Machine.execEval ra rb n s
  | .heval ra rb n => Sys2Proof.Machine.execHeval ra rb n s
  | .solve d r c => Sys2Proof.Machine.execSolve d r c s
  | .splitInit => Sys2Proof.Machine.execSplitInit s
  | .splitByte v => Sys2Proof.Machine.execSplitByte v s
  | .combineInit => Sys2Proof.Machine.execCombineInit s
  | .combineByte => Sys2Proof.Machine.execCombineByte s
  | .abort => Sys2Proof.Machine.execAbort s

end Sys2Proof.Machine
end

