-- ==== Sys2Proof/Machine/Turn.lean ====
section
/-! DEFINITION. One event of the block: `Execute` of the pending command (40_control.md R111, R112), and the
event the next entry of the inputs calls for (20_memory.md R74, 70_reset_and_hazards.md R259). -/

namespace Sys2Proof.Machine

/-- The command error of a word that is no command (30_encoding.md R94). -/
def decodeCause : DecodeError → Cause
  | .opcode op => .opcode op
  | .rsvdField op => .rsvdField op

/-- `Execute(w)` (R112). -/
def execute (w : Word) (s : State) : Host.Outcome State Fault Refusal :=
  match decode w with
  | .instr i => exec i s
  | .illegal e => .next (s.raise (decodeCause e))

/-- The completion step: enabled exactly while a command is pending (R111, R259). -/
def completion (s : State) : Host.Outcome State Fault Refusal :=
  match s.pending with
  | some w => execute w s
  | none => .next s

/-- The effect of one event. -/
def serve (e : Event) (s : State) : Host.Outcome State Fault Refusal :=
  match e with
  | .read off n => .next (hostRead off n s)
  | .write off n v => .next (hostWrite off n v s)
  | .completion => completion s
  | .rst => .next s.rst
  | .powerOn => .next s.powerOn

/-- The state an event starts from: its entry taken off the inputs, the earlier answer gone. -/
def State.takeTurn (s : State) : State := { s with inputs := s.inputs.tail, reply := none }

/-- The event that comes next. With nothing at the inputs the completion agent takes its turn, so a pending
command completes after finitely many steps (R259) and an idle block stays as it is (R253). -/
def State.nextEvent (s : State) : Event := s.inputs.head?.getD .completion

/-- The state in which the word `w` has just been issued and the completion step's turn is next. -/
def State.withIssued (w : Word) (s : State) : State :=
  { s.issue w with inputs := .completion :: s.inputs }

end Sys2Proof.Machine
end

