-- ==== Sys2Proof/Machine/Step.lean ====
section
/-! DEFINITION. The step: the event that comes next, served. -/

namespace Sys2Proof.Machine

/-- One step of the block and its inputs. -/
def step (s : State) : Host.Outcome State Fault Refusal := serve s.nextEvent s.takeTurn

/-- `s` with the command word `w` issued (R110) and its completion the next event (log entry 6). -/
def State.withFetchWord (s : State) (nbits w : Nat) : State :=
  s.withIssued (BitVec.ofNat 32 (w % 2 ^ nbits))

end Sys2Proof.Machine
end

