-- ==== Sys2Proof/Machine/HostProtocol.lean ====
section
/-! DEFINITION. The host's protocols for a whole secret (43_codec.md R185, R186) with the host-side refusals
(R190), in the notation of 30_encoding.md R99. They are the host's program, not the block: the step does not
run them, and they reach the block only through its bus accesses and completions. -/

namespace Sys2Proof.Machine

/-- One party's share: for each secret byte one row of bytes (00_scope.md R9). -/
abbrev Share := List (List Byte)

/-- Why a protocol returns an error. -/
inductive HostError where
  /-- an input the registers cannot represent (R190) -/
  | validation
  /-- a row longer than 255 bytes, the rows of that byte differing in length (R190) -/
  | sharesMismatch
  /-- a row longer than 255 bytes, the rows of that byte equally long (R190) -/
  | dimension
  /-- a command completed with this error -/
  | command (e : Err)
  deriving DecidableEq, Repr

/-- What a protocol returns, with the block's state at its end. -/
inductive HostEnd (α : Type) where
  | ok (x : α) (s : State)
  | failed (e : HostError) (s : State)
  /-- the block stopped; no command of this block does -/
  | stopped
  deriving DecidableEq, Repr

/-- `W32 off, v` (R99). -/
def w32 (off : Nat) (v : Nat) (s : State) : State := hostWrite off .word (BitVec.ofNat 32 v) s

/-- `W8 off, v` (R99). -/
def w8 (off : Nat) (v : Byte) (s : State) : State := hostWrite off .byte (v.setWidth 32) s

/-- `CMD w; WAIT` (R99): the command word written, then its completion. The polls of WAIT before the
completion only read STATUS and are left out (log entry 16). -/
def cmdWait (i : Instr) (s : State) : Host.Outcome State Fault Refusal :=
  completion (hostWrite 0x00C .word (encode i) s)

/-- Issue, wait, and go on unless ERR reports an error (R185, R186). -/
def afterCmd {α : Type} (i : Instr) (s : State) (go : State → HostEnd α) : HostEnd α :=
  match cmdWait i s with
  | .next t => if t.err.ecode = 0 then go t else .failed (.command t.err) t
  | .fault _ => .stopped
  | .refused _ => .stopped

/-- `(MAT[p][0], ..., MAT[p][K-1])` (R185). -/
def shareRow (s : State) (k p : Nat) : List Byte := (List.range k).map (fun c => byteAt s (matAddr p c))

/-- The loop over the secret's bytes in HOST_SPLIT (R185). -/
def splitLoop (n k : Nat) : List Byte → List Share → State → HostEnd (List Share)
  | [], shares, s => .ok shares s
  | b :: rest, shares, s =>
    afterCmd (.splitByte b) s (fun t =>
      splitLoop n k rest (List.zipWith (fun sh r => sh ++ [r]) shares ((List.range n).map (shareRow t k))) t)

/-- HOST_SPLIT (R185). -/
def hostSplit (secret : List Byte) (n k : Nat) (s : State) : HostEnd (List Share) :=
  if 65535 < n ∨ 65535 < k ∨ 4294967295 < secret.length then .failed .validation s
  else
    afterCmd .splitInit (w32 0x020 secret.length (w32 0x01C k (w32 0x018 n s)))
      (splitLoop n k secret (List.replicate n []))

/-- The rows of byte index `j`, one per supplied party. -/
def rowsAt (parts : List Share) (j : Nat) : List (List Byte) := parts.map (fun sh => sh.getD j [])

/-- `HostRowRefusal(parts, j)` (R190). -/
def rowRefusal (rows : List (List Byte)) : HostError :=
  if rows.all (fun r => r.length == (rows.headD []).length) then .dimension else .sharesMismatch

/-- Writes one supplied row to MAT row `p` and its length to ROWLEN (R186). -/
def loadRow (p : Nat) (row : List Byte) (s : State) : State :=
  w8 (rowlenAddr p) (BitVec.ofNat 8 row.length)
    (forUp row.length (fun c t => w8 (matAddr p c) (row.getD c 0) t) s)

/-- Writes every supplied row (R186). -/
def loadRows (rows : List (List Byte)) (s : State) : State :=
  forUp rows.length (fun p t => loadRow p (rows.getD p []) t) s

/-- The loop over byte indices `j`, `j + 1`, ... in HOST_COMBINE, as many as the second argument says (R186). -/
def combineLoop (parts : List Share) : Nat → Nat → List Byte → State → HostEnd (List Byte)
  | _, 0, secret, s => .ok secret s
  | j, n + 1, secret, s =>
    if (rowsAt parts j).any (fun r => decide (255 < r.length)) then .failed (rowRefusal (rowsAt parts j)) s
    else
      afterCmd .combineByte (loadRows (rowsAt parts j) s) (fun t =>
        combineLoop parts (j + 1) n (secret ++ [t.result]) t)

/-- Writes the outer lengths of the first 255 supplied shares to OLEN (R186). -/
def loadLengths (parts : List Share) (s : State) : State :=
  forUp (min parts.length 255) (fun p t => w32 (olenAddr p) (parts.getD p []).length t) s

/-- HOST_COMBINE (R186). -/
def hostCombine (parts : List Share) (s : State) : HostEnd (List Byte) :=
  if 65535 < parts.length ∨ parts.any (fun sh => decide (4294967295 < sh.length)) then .failed .validation s
  else
    afterCmd .combineInit (loadLengths parts (w32 0x024 parts.length s))
      (combineLoop parts 0 (parts.headD []).length [])

end Sys2Proof.Machine
end

