-- ==== Sys2Proof/Safety.lean ====
section
/-! DEFINITION. The terms claims are made in: what the spec promises of every state (an invariant of the
step), what a lost write is, and the linear systems of the solver unit. -/

namespace Sys2Proof.Machine

/-! ### Promises about every state -/

/-- No host write was dropped: "A model that must not miss a lost write checks OVR = 0" (60_exceptions.md R229). -/
def State.noLostWrite (s : State) : Bool := !s.ovr

/-- The (ECODE, SUB) pairs of 60_exceptions.md R211 with the INFO they allow, and 0 for success. -/
def Err.listed (e : Err) : Bool :=
  match e.ecode.toNat with
  | 0 => e.sub == 0 && e.info == 0
  | 1 => decide (1 ≤ e.sub.toNat) && decide (e.sub.toNat ≤ 10) && (decide (9 ≤ e.sub.toNat) || e.info == 0)
  | 2 => decide (1 ≤ e.sub.toNat) && decide (e.sub.toNat ≤ 4) && (e.sub != 4 || e.info == 0)
  | 3 => e.sub == 0
  | 4 => true
  | 5 => e.sub == 1 || (e.sub == 2 && e.info == 0)
  | 6 => e.sub == 1 || e.sub == 2
  | 7 => decide (1 ≤ e.sub.toNat) && decide (e.sub.toNat ≤ 3) && e.info == 0
  | _ => false

/-- What an open session has validated, and how far it has come (43_codec.md R170 to R179). -/
structure State.SessionLegal (s : State) : Prop where
  /-- J never passes L -/
  progress : s.sessJ.toNat ≤ s.sessL.toNat
  /-- an open session has bytes left -/
  unfinished : s.sess ≠ .idle → s.sessJ.toNat < s.sessL.toNat
  /-- SPLIT: 2 ≤ K ≤ N -/
  split : s.sess = .split → 2 ≤ s.sessKL.toNat ∧ s.sessKL.toNat ≤ s.sessNP.toNat
  /-- COMBINE: 2 ≤ P, and KL is 0 -/
  combine : s.sess = .combine → 2 ≤ s.sessNP.toNat ∧ s.sessKL = 0

/-- A pending command is the word CMD holds, and DONE is 0 until it completes (10_state.md R25, R26, R44). -/
structure State.PendingLegal (s : State) : Prop where
  word : ∀ w, s.pending = some w → s.cmd = w
  notDone : s.pending ≠ none → s.done = false

/-- The invariant of the step. -/
structure State.Inv (s : State) : Prop where
  memory : s.mem.wf
  poly : Config.legalPoly s.poly = true
  pending : s.PendingLegal
  session : s.SessionLegal
  errListed : s.err.listed = true
  resultOnError : s.err.ecode ≠ 0 → s.result = 0

/-- The state after a command that changed nothing but its own end: success with result `v` (40_control.md R111). -/
def State.okEnd (v : Byte) (s : State) : State :=
  { s with result := v, err := ⟨0, 0, 0⟩, pending := none, done := true }

/-- The same for an error end with the ERR fields `e` (60_exceptions.md R212). -/
def State.errorEnd (e : Err) (s : State) : State :=
  { s with result := 0, err := e, pending := none, done := true }

/-- The event at the head of the inputs. -/
abbrev State.arrives (s : State) (e : Event) : Prop := s.inputs.head? = some e

/-! ### Linear systems over GF(256) -/

/-- The XOR-sum of `f 0`, ..., `f (n-1)`. -/
def xorSum (n : Nat) (f : Nat → Byte) : Byte := ((List.range n).map f).foldr (fun a b => a ^^^ b) 0

/-- `x` solves the `d` equations `M · x = k` (42_solver.md R142). -/
def Solves (poly : Poly) (d : Nat) (M : Nat → Nat → Byte) (k : Nat → Byte) (x : Nat → Byte) : Prop :=
  ∀ r, r < d → xorSum d (fun c => gfMul poly (M r c) (x c)) = k r

/-- The `d` × `d` matrix `M` is nonsingular: only the zero vector solves `M · x = 0`. -/
def Nonsingular (poly : Poly) (d : Nat) (M : Nat → Nat → Byte) : Prop :=
  ∀ x, Solves poly d M (fun _ => 0) x → ∀ i, i < d → x i = 0

/-- The matrix that `d` share rows stand for: `(c_0, ..., c_{d-2}, 1)` (43_codec.md R175, R180). -/
def shareMatrix (m : Memory) (d : Nat) (p c : Nat) : Byte := if c = d - 1 then 1 else m.mat p c

/-- The constants of `d` share rows (R175, R180). -/
def shareConst (m : Memory) (d : Nat) (p : Nat) : Byte := m.mat p (d - 1)

/-- The window offset `a` is one of `MAT[r][c]` with `r < n` and `c < k`. -/
def inMatBlock (n k a : Nat) : Bool :=
  decide (0x10000 ≤ a) && decide ((a - 0x10000) / 256 < n) && decide ((a - 0x10000) % 256 < k)

/-- The window offset `a` is one of `CONST[i]` with `i < n`. -/
def inConst (n a : Nat) : Bool := decide (0x200 ≤ a) && decide (a < 0x200 + n)

/-- The window offset `a` is one of `ROWLEN[r]` with `r < n`. -/
def inRowlen (n a : Nat) : Bool := decide (0x100 ≤ a) && decide (a < 0x100 + n)

end Sys2Proof.Machine
end

