-- ==== Sys2Proof/Certificates/Slice0/Obligations.lean ====
section
/-! DEFINITION. The statements for the provers, from the numbered rules of the spec. A statement about a command
says what `exec` answers for every state and operands its hypotheses allow; equations between whole states are
frames, so what they do not name is unchanged. -/

open Sys2Proof Sys2Proof.Machine

/-! ### Encoding -/

/-- Decoding the word of any command gives the command back, every operand at every value (R90, R93, R94). -/
def Obligations.EncodeThenDecodeGivesTheCommand : Prop :=
  ∀ i : Instr, decode (encode i) = .instr i

/-- A word that decodes to a command is that command's only word (R93, R95). -/
def Obligations.DecodedWordIsTheCommandsOnlyWord : Prop :=
  ∀ (w : Word) (i : Instr), decode w = .instr i → encode i = w

/-- Words from the examples of R97 and the encodings of the command rules. -/
def Obligations.SampleWordsDecodeAsWritten : Prop :=
  decode 0x01030700 = .instr (.gmul 3 7) ∧ decode 0x02090700 = .instr (.gdiv 9 7) ∧
  decode 0x03530000 = .instr (.ginv 0x53) ∧ decode 0x10000103 = .instr (.eval 0 1 3) ∧
  decode 0x12030303 = .instr (.solve 3 3 3) ∧ decode 0x21480000 = .instr (.splitByte 0x48) ∧
  decode 0x31000000 = .instr .combineByte ∧ decode 0x00000000 = .instr .nop ∧
  decode 0x3F000000 = .instr .abort

/-- R94: the order of the decode checks, their errors, and the fields a legal word gives. -/
def Obligations.DecodeChecksOpcodeThenReservedFields : Prop :=
  ∀ (w : Word) (s : State),
    let op : Byte := w.extractLsb' 24 8
    let a : Byte := w.extractLsb' 16 8
    let b : Byte := w.extractLsb' 8 8
    let c : Byte := w.extractLsb' 0 8
    let f0 : Prop := op ∈ ([0x00, 0x20, 0x30, 0x31, 0x3F] : List Byte)
    let f1 : Prop := op ∈ ([0x03, 0x21] : List Byte)
    let f2 : Prop := op ∈ ([0x01, 0x02] : List Byte)
    let f3 : Prop := op ∈ ([0x10, 0x11, 0x12] : List Byte)
    let reserved : Prop := (f0 ∧ a ≠ 0) ∨ ((f0 ∨ f1) ∧ b ≠ 0) ∨ ((f0 ∨ f1 ∨ f2) ∧ c ≠ 0)
    (¬ (f0 ∨ f1 ∨ f2 ∨ f3) → execute w s = .next (s.errorEnd ⟨6, 0x01, op⟩)) ∧
    (reserved → execute w s = .next (s.errorEnd ⟨6, 0x02, op⟩)) ∧
    ((f0 ∨ f1 ∨ f2 ∨ f3) → ¬ reserved →
      ∃ i : Instr, decode w = .instr i ∧ i.opcode = op ∧ i.operands = ⟨a, b, c⟩ ∧ execute w s = exec i s)

/-- When the completion agent has the turn (with nothing at the inputs the turn is its own), the step is `Execute`
of the pending word, a command or not (R94, R95, R111, R112), and so the meaning of the command the word decodes to;
with no command pending the step is not enabled and changes nothing (R253, R259). That a turn takes its event off the
inputs is the model's form of them (log entry 5). -/
def Obligations.StepRunsThePendingCommand : Prop :=
  ∀ s : State, (s.inputs = [] ∨ s.arrives .completion) →
    (∀ w, s.pending = some w →
      step s = execute w s.takeTurn ∧ ∀ i, decode w = .instr i → step s = exec i s.takeTurn) ∧
    (s.pending = none → step s = .next s.takeTurn)

/-! ### Reset -/

/-- R250: every register, the session, the pending command, irq and INVTAB after a reset, at power-on or later;
and the state the model starts in. -/
def Obligations.ResetSetsEveryRegister : Prop :=
  (∀ r : Reg, regRead r State.reset = if r = .id then 0x47463031 else 0) ∧
  State.reset.pending = none ∧ State.reset.irq = false ∧
  ∀ (s : State) (e : Event), (e = .rst ∨ e = .powerOn) → s.arrives e →
    ∃ t, step s = .next t ∧
      (∀ r : Reg, regRead r t = if r = .id then 0x47463031 else 0) ∧
      t.sess = .idle ∧ t.sessNP = 0 ∧ t.sessKL = 0 ∧ t.pending = none ∧ t.irq = false ∧
      t.poly = s.poly ∧ (∀ x, invtab t.poly x = invtab s.poly x)

/-- R251: the buffers after a reset. A value drawn anew is the free value of the next draw number, of which
nothing is known (log entry 1). -/
def Obligations.ResetKeepsOrRedrawsTheBuffers : Prop :=
  ∀ s : State,
    (s.arrives .rst → s.pending = none → ∃ t, step s = .next t ∧ ∀ a, t.mem.read a = s.mem.read a) ∧
    (s.arrives .rst → s.pending ≠ none → ∃ t, step s = .next t ∧ t.pending = none ∧
      (∀ a, 0x800 ≤ a → a < 0xC00 → t.mem.read a = s.mem.read a) ∧
      ∀ a, a < 0x800 ∨ 0xC00 ≤ a → t.mem.read a = Config.unwritten (s.mem.bufGen + 1) a) ∧
    (s.arrives .powerOn → ∃ t, step s = .next t ∧
      (∀ a, 0x800 ≤ a → a < 0xC00 → t.mem.read a = Config.unwritten (s.mem.olenGen + 1) a) ∧
      ∀ a, a < 0x800 ∨ 0xC00 ≤ a → t.mem.read a = Config.unwritten (s.mem.bufGen + 1) a)

/-! ### Host accesses -/

/-- R36: the reserved registers. -/
def Obligations.ReservedRegistersReadZeroAndIgnoreWrites : Prop :=
  ∀ (s : State) (off : Nat) (v : Word), 0x34 ≤ off → off ≤ 0xFF → off % 4 = 0 →
    (s.arrives (.read off .word) → step s = .next { s.takeTurn with reply := some (.data 0) }) ∧
    (s.arrives (.write off .word v) → step s = .next { s.takeTurn with reply := some .done })

/-- The registers read as numbers of their fields (R22 to R35), by a word read at their offsets. -/
def Obligations.RegisterReadsShowTheirFields : Prop :=
  ∀ s : State,
    let reads (off : Nat) (v : Nat) : Prop :=
      s.arrives (.read off .word) →
        step s = .next { s.takeTurn with reply := some (.data (BitVec.ofNat 32 v)) } ∧ v < 2 ^ 32
    reads 0x000 0x47463031 ∧
    reads 0x004 s.ie.toNat ∧
    reads 0x008 (s.pending.isSome.toNat + 2 * s.done.toNat + 4 * s.ovr.toNat +
      8 * (if s.err.ecode = 0 then 0 else 1) +
      16 * (match s.sess with | .idle => 0 | .split => 1 | .combine => 2)) ∧
    reads 0x00C s.cmd.toNat ∧
    reads 0x010 s.result.toNat ∧
    reads 0x014 (s.err.ecode.toNat + 256 * s.err.sub.toNat + 65536 * s.err.info.toNat) ∧
    reads 0x018 s.cfgN.toNat ∧
    reads 0x01C s.cfgK.toNat ∧
    reads 0x020 s.cfgL.toNat ∧
    reads 0x024 s.cfgP.toNat ∧
    reads 0x028 s.sessJ.toNat ∧
    reads 0x02C s.sessL.toNat ∧
    reads 0x030 (s.sessNP.toNat + 256 * s.sessKL.toNat)

/-- R63, R68, R70, and the width rules of R65 and R66: a misaligned access, an unmapped offset and a narrow access
to a register or to OLEN get BusError, a read returning 0, and change nothing, BUSY or not. -/
def Obligations.BusErrorsChangeNothing : Prop :=
  ∀ (s : State) (off : Nat) (n : Width) (v : Word), off < 0x20000 →
    (off % n.bytes ≠ 0 ∨ (0x400 ≤ off ∧ off ≤ 0x7FF) ∨ (0xC00 ≤ off ∧ off ≤ 0xFFFF) ∨
      (n ≠ .word ∧ (off ≤ 0xFF ∨ (0x800 ≤ off ∧ off ≤ 0xBFF)))) →
    (s.arrives (.read off n) ∨ s.arrives (.write off n v)) →
    step s = .next { s.takeTurn with reply := some .busError } ∧ BusReply.busError.value = 0

/-- An offset at or above 0x20000 is not the block's (R64): the access gets no answer from it and changes nothing,
which is the model's reading (log entry 9). -/
def Obligations.UndecodedOffsetsReachNothing : Prop :=
  ∀ (s : State) (off : Nat) (n : Width) (v : Word), 0x20000 ≤ off →
    (s.arrives (.read off n) ∨ s.arrives (.write off n v)) → step s = .next s.takeTurn

/-- R72: a read has no side effect. Only the answer and the model's own count of free values can change. -/
def Obligations.ReadsHaveNoSideEffect : Prop :=
  ∀ (s : State) (off : Nat) (n : Width), s.arrives (.read off n) →
    ∃ k, ∃ reply, step s = .next { s.takeTurn with busyReads := k, reply := reply }

/-- With BUSY = 0 an aligned write to MAT, CONST, ROWLEN or (a word) OLEN stores its bytes, the low byte first,
and changes no other byte and nothing else (R62, R66, R67, R79). -/
def Obligations.BufferWriteStoresItsBytesOnly : Prop :=
  ∀ (s : State) (off : Nat) (n : Width) (v : Word), s.pending = none → off % n.bytes = 0 →
    ((0x100 ≤ off ∧ off ≤ 0x2FF) ∨ (0x10000 ≤ off ∧ off ≤ 0x1FFFF) ∨
      (n = .word ∧ 0x800 ≤ off ∧ off ≤ 0xBFF)) →
    s.arrives (.write off n v) →
    ∃ t, step s = .next t ∧ t = { s.takeTurn with mem := t.mem, reply := some .done } ∧
      ∀ a, t.mem.read a =
        if off ≤ a ∧ a < off + n.bytes then (v >>> (8 * (a - off))).setWidth 8 else s.mem.read a

/-- A read of a buffer at the offset and width of a write just made returns the bytes written (R62, R66, R67). -/
def Obligations.BufferReadReturnsWhatWasWritten : Prop :=
  ∀ (s : State) (off : Nat) (n : Width) (v : Word) (rest : List Event), s.pending = none → off % n.bytes = 0 →
    ((0x100 ≤ off ∧ off ≤ 0x2FF) ∨ (0x10000 ≤ off ∧ off ≤ 0x1FFFF) ∨
      (n = .word ∧ 0x800 ≤ off ∧ off ≤ 0xBFF)) →
    s.inputs = .write off n v :: .read off n :: rest →
    ∃ t u, step s = .next t ∧ step t = .next u ∧
      u.reply = some (.data (BitVec.ofNat 32 (v.toNat % 2 ^ (8 * n.bytes))))

/-- R80: writes while BUSY = 1. The clause on read-only locations, ignored without BusError and without OVR (R69),
and those on CTRL, STATUS and the accesses that fail the checks hold at any BUSY. -/
def Obligations.BusyWritesAreDroppedAndSetOvr : Prop :=
  ∀ (s : State) (off : Nat) (n : Width) (v : Word), s.arrives (.write off n v) →
    (s.pending ≠ none →
      (n = .word ∧ off ∈ [0x00C, 0x018, 0x01C, 0x020, 0x024]) ∨
        (off % n.bytes = 0 ∧ ((0x100 ≤ off ∧ off ≤ 0x2FF) ∨ (n = .word ∧ 0x800 ≤ off ∧ off ≤ 0xBFF) ∨
          (0x10000 ≤ off ∧ off ≤ 0x1FFFF))) →
      step s = .next { s.takeTurn with ovr := true, reply := some .done }) ∧
    (n = .word → off = 0x004 →
      step s = .next { s.takeTurn with ie := v.getLsbD 0, reply := some .done }) ∧
    (n = .word → off = 0x008 →
      step s = .next { s.takeTurn with
        done := s.done && !v.getLsbD 1, ovr := s.ovr && !v.getLsbD 2, reply := some .done }) ∧
    (off % n.bytes = 0 →
        (n = .word ∧ (off ∈ [0x000, 0x010, 0x014, 0x028, 0x02C, 0x030] ∨ (0x34 ≤ off ∧ off ≤ 0xFF))) ∨
          (0x300 ≤ off ∧ off ≤ 0x3FF) →
      step s = .next { s.takeTurn with reply := some .done }) ∧
    (off < 0x20000 →
        off % n.bytes ≠ 0 ∨ (0x400 ≤ off ∧ off ≤ 0x7FF) ∨ (0xC00 ≤ off ∧ off ≤ 0xFFFF) ∨
          (n ≠ .word ∧ (off ≤ 0xFF ∨ (0x800 ≤ off ∧ off ≤ 0xBFF))) →
      step s = .next { s.takeTurn with reply := some .busError })

/-- CTRL holds IE alone, STATUS writes clear DONE and OVR where a 1 is written, both BUSY or not, and irq follows
(R24, R25, R45). -/
def Obligations.CtrlAndStatusWritesTakeEffectAtOnce : Prop :=
  ∀ (s : State) (v : Word),
    (s.arrives (.write 0x004 .word v) →
      ∃ t, step s = .next t ∧ t = { s.takeTurn with ie := v.getLsbD 0, reply := some .done } ∧
        regRead .ctrl t = v &&& 1 ∧ t.irq = (v.getLsbD 0 && s.done)) ∧
    (s.arrives (.write 0x008 .word v) →
      ∃ t, step s = .next t ∧
        t = { s.takeTurn with
          done := s.done && !v.getLsbD 1, ovr := s.ovr && !v.getLsbD 2, reply := some .done } ∧
        (v.getLsbD 1 = true → t.irq = false) ∧ (v.getLsbD 1 = false → t.irq = s.irq))

/-- R110: the issue of a command, and the drop of one while BUSY = 1. -/
def Obligations.CmdWriteIssuesTheCommand : Prop :=
  ∀ (s : State) (w : Word), s.arrives (.write 0x00C .word w) →
    (s.pending = none → step s = .next { s.takeTurn with
      cmd := w, done := false, pending := some w, reply := some .done }) ∧
    (s.pending ≠ none → step s = .next { s.takeTurn with ovr := true, reply := some .done })

/-- With BUSY = 0 the configuration registers hold what is written, CFG_N, CFG_K and CFG_P in 16 bits, and nothing
else changes (R29 to R32). -/
def Obligations.ConfigRegistersHoldWhatIsWritten : Prop :=
  ∀ (s : State) (v : Word), s.pending = none →
    (s.arrives (.write 0x018 .word v) → ∃ t, step s = .next t ∧
      t = { s.takeTurn with cfgN := t.cfgN, reply := some .done } ∧ regRead .cfgN t = v &&& 0xFFFF) ∧
    (s.arrives (.write 0x01C .word v) → ∃ t, step s = .next t ∧
      t = { s.takeTurn with cfgK := t.cfgK, reply := some .done } ∧ regRead .cfgK t = v &&& 0xFFFF) ∧
    (s.arrives (.write 0x020 .word v) → ∃ t, step s = .next t ∧
      t = { s.takeTurn with cfgL := t.cfgL, reply := some .done } ∧ regRead .cfgL t = v) ∧
    (s.arrives (.write 0x024 .word v) → ∃ t, step s = .next t ∧
      t = { s.takeTurn with cfgP := t.cfgP, reply := some .done } ∧ regRead .cfgP t = v &&& 0xFFFF)

/-- Reads of the buffers and INVTAB (R62, R79, R81). With BUSY = 0 they answer their bytes, the first in bits
[7:0]. With BUSY = 1 a read of MAT, CONST or ROWLEN answers the next free value, of which nothing is known (log
entry 4), and OLEN and INVTAB still answer what they hold. -/
def Obligations.BufferReadsAnswerTheirBytesUnlessBusy : Prop :=
  ∀ (s : State) (off : Nat) (n : Width), off % n.bytes = 0 → s.arrives (.read off n) →
    ((0x100 ≤ off ∧ off ≤ 0x2FF) ∨ (0x10000 ≤ off ∧ off ≤ 0x1FFFF) → s.pending = none →
      step s = .next { s.takeTurn with
        reply := some (.data (wordOfBytes ((List.range n.bytes).map (fun k => s.mem.read (off + k))))) }) ∧
    ((0x100 ≤ off ∧ off ≤ 0x2FF) ∨ (0x10000 ≤ off ∧ off ≤ 0x1FFFF) → s.pending ≠ none →
      step s = .next { s.takeTurn with
        busyReads := s.busyReads + 1,
        reply := some (.data (BitVec.ofNat 32 ((Config.busyRead s.busyReads).toNat % 2 ^ (8 * n.bytes)))) }) ∧
    (n = .word → 0x800 ≤ off → off ≤ 0xBFF →
      step s = .next { s.takeTurn with reply := some (.data (s.mem.olen ((off - 0x800) / 4))) }) ∧
    (0x300 ≤ off → off ≤ 0x3FF →
      step s = .next { s.takeTurn with
        reply := some (.data (wordOfBytes ((List.range n.bytes).map
          (fun k => invtab s.poly (BitVec.ofNat 8 (off - 0x300 + k)))))) })

/-! ### Rules over all commands -/

/-- Every accepted word, legal or not, ends in one completion: BUSY 0, DONE 1, irq = IE, and RESULT 0 with an error
(R111, R112, R212, R219). -/
def Obligations.EveryWordEndsInOneCompletion : Prop :=
  ∀ (w : Word) (s : State), ∃ t, execute w s = .next t ∧
    t.pending = none ∧ t.done = true ∧ t.irq = s.ie ∧
    (t.err.ecode = 0 → t.err = ⟨0, 0, 0⟩) ∧ (t.err.ecode ≠ 0 → t.result = 0)

/-- No command touches CTRL, OVR, CMD, the configuration registers, POLY, OLEN or what is at the inputs, and only
SPLIT_BYTE draws (R40, R42, R73, R176). -/
def Obligations.CommandsLeaveTheHostsStateAlone : Prop :=
  ∀ (i : Instr) (s : State), ∃ t, exec i s = .next t ∧
    t.ie = s.ie ∧ t.ovr = s.ovr ∧ t.cmd = s.cmd ∧
    t.cfgN = s.cfgN ∧ t.cfgK = s.cfgK ∧ t.cfgL = s.cfgL ∧ t.cfgP = s.cfgP ∧ t.poly = s.poly ∧
    t.inputs = s.inputs ∧ t.reply = s.reply ∧ t.busyReads = s.busyReads ∧
    (∀ a, 0x800 ≤ a → a ≤ 0xBFF → t.mem.read a = s.mem.read a) ∧
    ((∀ v, i ≠ .splitByte v) → t.rng = s.rng ∧ t.draws = s.draws)

/-- R170: the session state machine, over all commands and the words that are none; success is ECODE 0. -/
def Obligations.SessionFollowsItsStateMachine : Prop :=
  (∀ s : State, (regRead .status s).extractLsb' 4 2 =
    match s.sess with | .idle => 0 | .split => 1 | .combine => 2) ∧
  (∀ (w : Word) (e : DecodeError) (s : State), decode w = .illegal e →
    ∃ t, execute w s = .next t ∧ t.err.ecode = 6 ∧ t.sess = s.sess) ∧
  ∀ (i : Instr) (s : State), ∃ t, exec i s = .next t ∧
    match i with
    | .abort => t.err.ecode = 0 ∧ t.sess = .idle
    | .splitInit =>
      (s.sess = .idle → (t.err.ecode = 0 → t.sess = .split) ∧ (t.err.ecode ≠ 0 → t.sess = .idle)) ∧
      (s.sess ≠ .idle → t.err.ecode = 7 ∧ t.sess = s.sess)
    | .combineInit =>
      (s.sess = .idle →
        (t.err.ecode = 0 → t.sess = if t.sessL = 0 then .idle else .combine) ∧
        (t.err.ecode ≠ 0 → t.sess = .idle)) ∧
      (s.sess ≠ .idle → t.err.ecode = 7 ∧ t.sess = s.sess)
    | .splitByte _ =>
      (s.sess = .split →
        (t.err.ecode = 0 → t.sess = if t.sessJ = t.sessL then .idle else .split) ∧
        (t.err.ecode ≠ 0 → t.sess = .idle)) ∧
      (s.sess ≠ .split → t.err.ecode = 7 ∧ t.sess = s.sess)
    | .combineByte =>
      (s.sess = .combine →
        (t.err.ecode = 0 → t.sess = if t.sessJ = t.sessL then .idle else .combine) ∧
        (t.err.ecode ≠ 0 → t.sess = .idle)) ∧
      (s.sess ≠ .combine → t.err.ecode = 7 ∧ t.sess = s.sess)
    | .nop => t.sess = s.sess
    | .gmul _ _ => t.sess = s.sess
    | .gdiv _ _ => t.sess = s.sess
    | .ginv _ => t.sess = s.sess
    | .eval _ _ _ => t.sess = s.sess
    | .heval _ _ _ => t.sess = s.sess
    | .solve _ _ _ => t.sess = s.sess

/-- SESS_J, SESS_L and SESS_NK change only at a successful session command, and as R33, R34, R35 and R258 say. -/
def Obligations.SessionCountersFollowSuccessOnly : Prop :=
  ∀ (i : Instr) (s : State), ∃ t, exec i s = .next t ∧
    (t.err.ecode ≠ 0 →
      t.sessJ = s.sessJ ∧ t.sessL = s.sessL ∧ t.sessNP = s.sessNP ∧ t.sessKL = s.sessKL) ∧
    (t.err.ecode = 0 →
      t.sessJ = (if i = .splitInit ∨ i = .combineInit then 0
        else if i = .combineByte ∨ i.opcode = 0x21 then s.sessJ + 1 else s.sessJ) ∧
      t.sessL = (if i = .splitInit then s.cfgL else if i = .combineInit then s.mem.olen 0 else s.sessL) ∧
      t.sessNP.toNat = (if i = .splitInit then s.cfgN.toNat
        else if i = .combineInit then s.cfgP.toNat else s.sessNP.toNat) ∧
      t.sessKL.toNat = (if i = .splitInit then s.cfgK.toNat
        else if i = .combineInit then 0 else s.sessKL.toNat))

/-- Every step keeps the invariant: the buffers' canonical form, a legal polynomial, a pending command that CMD
holds with DONE 0, a session within its validated bounds, and an ERR value that R211 lists. -/
def Obligations.StepKeepsTheMachineLegal : Prop :=
  ∀ s t : State, s.Inv → step s = .next t → t.Inv

/-- The state after reset meets the invariant. -/
def Obligations.ResetStateIsLegal : Prop := State.reset.Inv

/-- No step stops, in any state whatever, reached or not. This is the model's reading (log entry 14): R95 and R212 make
every error of a command a completion, and the spec leaves no event without an effect. In states no run reaches it
rests on the model's total loops (log entry 11). -/
def Obligations.NoStepEverStops : Prop := ∀ s : State, ∃ t, step s = .next t

/-- R259: no command stays pending, a reset at the inputs discarding it (R250); and where the inputs hold no reset,
the completion step of that very command comes and runs it. The bounds are the model's, whose inputs are a finite list
(log entry 5). -/
def Obligations.PendingCommandIsServed : Prop :=
  ∀ (s : State) (w : Word), s.pending = some w →
    (∃ k t, k ≤ s.inputs.length + 1 ∧ Sys2Proof.core.run k s = .next t ∧ t.pending = none) ∧
    (.rst ∉ s.inputs → .powerOn ∉ s.inputs →
      ∃ (k : Nat) (u t : State), k ≤ s.inputs.length ∧ Sys2Proof.core.run k s = .next u ∧ u.pending = some w ∧
        step u = execute w u.takeTurn ∧ step u = .next t ∧ t.pending = none)

/-- R215: a CMD write that races a completion is dropped with OVR, or accepted as the next command, by their order. -/
def Obligations.RacingCmdWriteIsDroppedOrAccepted : Prop :=
  ∀ (s : State) (w v : Word) (rest : List Event), s.pending = some w →
    (s.inputs = .write 0x00C .word v :: .completion :: rest →
      ∃ t u, step s = .next t ∧ step t = .next u ∧
        t.pending = some w ∧ u.pending = none ∧ u.cmd = s.cmd ∧ u.ovr = true) ∧
    (s.inputs = .completion :: .write 0x00C .word v :: rest →
      ∃ t u, step s = .next t ∧ step t = .next u ∧
        t.pending = none ∧ u.pending = some v ∧ u.cmd = v ∧ u.ovr = s.ovr)

/-- R211: "No other (ECODE, SUB) pair is ever written", with the INFO the table allows. -/
def Obligations.OnlyListedErrorsAreWritten : Prop :=
  ∀ (w : Word) (s t : State), execute w s = .next t → t.err.listed = true

/-- R216: no host access, STATUS write or issue changes ERR or RESULT; only a completion or a reset does. -/
def Obligations.ErrAndResultPersistUntilCompletion : Prop :=
  ∀ (s t : State) (off : Nat) (n : Width) (v : Word),
    (s.arrives (.read off n) ∨ s.arrives (.write off n v)) → step s = .next t →
    t.err = s.err ∧ t.result = s.result

/-! ### Control commands -/

/-- NOP and ABORT (R113, R114), with everything they leave unchanged. -/
def Obligations.NopAndAbortCompleteWithZero : Prop :=
  ∀ s : State, exec .nop s = .next (s.okEnd 0) ∧ exec .abort s = .next ({ s with sess := .idle }.okEnd 0)

/-! ### Field unit -/

/-- R125: the laws of the field, for every legal polynomial. -/
def Obligations.FieldLawsHold : Prop :=
  ∀ p : Poly, Config.legalPoly p = true →
    (∀ x, gfMul p 0 x = 0 ∧ gfMul p x 0 = 0 ∧ gfMul p 1 x = x) ∧
    (∀ a b, gfMul p a b = gfMul p b a) ∧
    (∀ a b c, gfMul p a (gfMul p b c) = gfMul p (gfMul p a b) c) ∧
    (∀ a b c, gfMul p a (b ^^^ c) = gfMul p a b ^^^ gfMul p a c) ∧
    (∀ i, i ≠ 0 → gfMul p i (gfInv p i) = 1) ∧
    (∀ a b, b ≠ 0 → gfDiv p (gfMul p a b) b = a) ∧
    (∀ a b, gfMul p a b = 0 → a = 0 ∨ b = 0)

/-- R123: INV(x) is the unique inverse and is `x` multiplied by itself 254 times over, x^254; 0 has none; INVTAB
holds INV. -/
def Obligations.InverseIsUniqueAndIsThePower254 : Prop :=
  ∀ p : Poly, Config.legalPoly p = true →
    (∀ y, gfMul p 0 y ≠ 1) ∧
    ∀ x, x ≠ 0 →
      gfInv p x ≠ 0 ∧ gfMul p x (gfInv p x) = 1 ∧ (∀ y, gfMul p x y = 1 → y = gfInv p x) ∧
      gfInv p x = forUp 254 (fun _ acc => gfMul p acc x) 1 ∧ invtab p x = gfInv p x

/-- The legal polynomials are those of degree 8 that are no product of two polynomials of lower degree (R122). -/
def Obligations.LegalPolynomialsAreTheIrreducibleOnes : Prop :=
  ∀ p : Poly, Config.legalPoly p = true ↔
    p.getLsbD 8 = true ∧ ∀ a b : Byte, 2 ≤ a.toNat → 2 ≤ b.toNat → clmul a b ≠ p.setWidth 15

/-- R126: INVTAB for POLY = 0x11B, entry x = 16 · row + column. -/
def Obligations.InvtabHoldsTheStatedTable : Prop :=
  (List.range 256).map (fun x => invtab 0x11B (BitVec.ofNat 8 x)) =
    (([0x00, 0x01, 0x8D, 0xF6, 0xCB, 0x52, 0x7B, 0xD1, 0xE8, 0x4F, 0x29, 0xC0, 0xB0, 0xE1, 0xE5, 0xC7] ++
      [0x74, 0xB4, 0xAA, 0x4B, 0x99, 0x2B, 0x60, 0x5F, 0x58, 0x3F, 0xFD, 0xCC, 0xFF, 0x40, 0xEE, 0xB2] ++
      [0x3A, 0x6E, 0x5A, 0xF1, 0x55, 0x4D, 0xA8, 0xC9, 0xC1, 0x0A, 0x98, 0x15, 0x30, 0x44, 0xA2, 0xC2] ++
      [0x2C, 0x45, 0x92, 0x6C, 0xF3, 0x39, 0x66, 0x42, 0xF2, 0x35, 0x20, 0x6F, 0x77, 0xBB, 0x59, 0x19] ++
      [0x1D, 0xFE, 0x37, 0x67, 0x2D, 0x31, 0xF5, 0x69, 0xA7, 0x64, 0xAB, 0x13, 0x54, 0x25, 0xE9, 0x09] ++
      [0xED, 0x5C, 0x05, 0xCA, 0x4C, 0x24, 0x87, 0xBF, 0x18, 0x3E, 0x22, 0xF0, 0x51, 0xEC, 0x61, 0x17] ++
      [0x16, 0x5E, 0xAF, 0xD3, 0x49, 0xA6, 0x36, 0x43, 0xF4, 0x47, 0x91, 0xDF, 0x33, 0x93, 0x21, 0x3B] ++
      [0x79, 0xB7, 0x97, 0x85, 0x10, 0xB5, 0xBA, 0x3C, 0xB6, 0x70, 0xD0, 0x06, 0xA1, 0xFA, 0x81, 0x82] ++
      [0x83, 0x7E, 0x7F, 0x80, 0x96, 0x73, 0xBE, 0x56, 0x9B, 0x9E, 0x95, 0xD9, 0xF7, 0x02, 0xB9, 0xA4] ++
      [0xDE, 0x6A, 0x32, 0x6D, 0xD8, 0x8A, 0x84, 0x72, 0x2A, 0x14, 0x9F, 0x88, 0xF9, 0xDC, 0x89, 0x9A] ++
      [0xFB, 0x7C, 0x2E, 0xC3, 0x8F, 0xB8, 0x65, 0x48, 0x26, 0xC8, 0x12, 0x4A, 0xCE, 0xE7, 0xD2, 0x62] ++
      [0x0C, 0xE0, 0x1F, 0xEF, 0x11, 0x75, 0x78, 0x71, 0xA5, 0x8E, 0x76, 0x3D, 0xBD, 0xBC, 0x86, 0x57] ++
      [0x0B, 0x28, 0x2F, 0xA3, 0xDA, 0xD4, 0xE4, 0x0F, 0xA9, 0x27, 0x53, 0x04, 0x1B, 0xFC, 0xAC, 0xE6] ++
      [0x7A, 0x07, 0xAE, 0x63, 0xC5, 0xDB, 0xE2, 0xEA, 0x94, 0x8B, 0xC4, 0xD5, 0x9D, 0xF8, 0x90, 0x6B] ++
      [0xB1, 0x0D, 0xD6, 0xEB, 0xC6, 0x0E, 0xCF, 0xAD, 0x08, 0x4E, 0xD7, 0xE3, 0x5D, 0x50, 0x1E, 0xB3] ++
      [0x5B, 0x23, 0x38, 0x34, 0x68, 0x46, 0x03, 0x8C, 0xDD, 0x9C, 0x7D, 0xA0, 0xCD, 0x1A, 0x41, 0x1C] : List Byte))

/-- GMUL (R128) for every operand and state, with everything it leaves unchanged. -/
def Obligations.GmulGivesTheProduct : Prop :=
  ∀ (a b : Byte) (s : State), exec (.gmul a b) s = .next (s.okEnd (gfMul s.poly a b))

/-- GDIV (R129, R124): the quotient, the only `q` with `q ⊗ b = a`, or E_DOMAIN for b = 0, and nothing else changed. -/
def Obligations.GdivGivesTheQuotientOrDomainError : Prop :=
  ∀ (a b : Byte) (s : State),
    (b = 0 → exec (.gdiv a b) s = .next (s.errorEnd ⟨5, 0x01, a⟩)) ∧
    (b ≠ 0 → Config.legalPoly s.poly = true →
      ∃ q, exec (.gdiv a b) s = .next (s.okEnd q) ∧ ∀ q', gfMul s.poly q' b = a ↔ q' = q)

/-- GINV (R130): the inverse, or E_DOMAIN for x = 0, and nothing else changed. -/
def Obligations.GinvGivesTheInverseOrDomainError : Prop :=
  ∀ (x : Byte) (s : State),
    (x = 0 → exec (.ginv x) s = .next (s.errorEnd ⟨5, 0x02, 0⟩)) ∧
    (x ≠ 0 → Config.legalPoly s.poly = true →
      ∃ y, exec (.ginv x) s = .next (s.okEnd y) ∧ ∀ y', gfMul s.poly x y' = 1 ↔ y' = y)

/-! ### Solver unit -/

/-- EVAL (R140): the XOR-sum of the products of the first n elements, and nothing else changed. -/
def Obligations.EvalGivesTheInnerProduct : Prop :=
  ∀ (ra rb n : Byte) (s : State), exec (.eval ra rb n) s =
    .next (s.okEnd (xorSum n.toNat (fun i => gfMul s.poly (s.mem.mat ra.toNat i) (s.mem.mat rb.toNat i))))

/-- HEVAL (R141): the hyperplane form, element n-1 of row ra unread, and nothing else changed. -/
def Obligations.HevalGivesTheHyperplaneForm : Prop :=
  ∀ (ra rb n : Byte) (s : State),
    (n = 0 → exec (.heval ra rb n) s = .next (s.okEnd 0)) ∧
    (n ≠ 0 → exec (.heval ra rb n) s =
      .next (s.okEnd (xorSum (n.toNat - 1) (fun i => gfMul s.poly (s.mem.mat ra.toNat i) (s.mem.mat rb.toNat i))
        ^^^ s.mem.mat rb.toNat (n.toNat - 1))))

/-- A share row passes the hyperplane check against its target point (R141, R174, R175): with constant
`MUL(c_0, v)` in column K-1 of row ra and the point (v, 0, ..., 0) in row rb, HEVAL gives the row's constant. -/
def Obligations.HevalAcceptsAShareRow : Prop :=
  ∀ (ra rb n v : Byte) (s : State), 2 ≤ n.toNat →
    s.mem.mat ra.toNat (n.toNat - 1) = gfMul s.poly (s.mem.mat ra.toNat 0) v →
    s.mem.mat rb.toNat 0 = v → (∀ i, 1 ≤ i → i < n.toNat → s.mem.mat rb.toNat i = 0) →
    exec (.heval ra rb n) s = .next (s.okEnd (s.mem.mat ra.toNat (n.toNat - 1)))

/-- R143: the dimension checks of SOLVE in their order, each with its INFO, and nothing written. -/
def Obligations.SolveChecksDimensionsInOrder : Prop :=
  ∀ (d r c : Byte) (s : State),
    (r ≠ d → exec (.solve d r c) s = .next (s.errorEnd ⟨2, 0x01, r⟩)) ∧
    (r = d → ∀ i : Byte, i.toNat < r.toNat → s.mem.rowlen i.toNat ≠ d →
      (∀ j, j < i.toNat → s.mem.rowlen j = d) → exec (.solve d r c) s = .next (s.errorEnd ⟨2, 0x02, i⟩)) ∧
    (r = d → (∀ j, j < r.toNat → s.mem.rowlen j = d) → c ≠ d →
      exec (.solve d r c) s = .next (s.errorEnd ⟨2, 0x03, c⟩)) ∧
    (r = d → (∀ j, j < r.toNat → s.mem.rowlen j = d) → c = d → d = 0 →
      exec (.solve d r c) s = .next (s.errorEnd ⟨2, 0x04, 0⟩))

/-- R147: SOLVE of a nonsingular system completes with x_0, leaves the identity in MAT and the unique solution of
the system as it was in CONST, and changes nothing else. -/
def Obligations.SolveFindsTheUniqueSolution : Prop :=
  ∀ (d : Byte) (s : State), Config.legalPoly s.poly = true → d ≠ 0 →
    (∀ r, r < d.toNat → s.mem.rowlen r = d) → Nonsingular s.poly d.toNat s.mem.mat →
    ∃ t, exec (.solve d d d) s = .next t ∧ t = { s with mem := t.mem }.okEnd (t.mem.const 0) ∧
      (∀ r c, r < d.toNat → c < d.toNat → t.mem.mat r c = if r = c then 1 else 0) ∧
      (∀ x, Solves s.poly d.toNat s.mem.mat s.mem.const x ↔ ∀ i, i < d.toNat → x i = t.mem.const i) ∧
      (∀ a, inMatBlock d.toNat d.toNat a = false → inConst d.toNat a = false →
        t.mem.read a = s.mem.read a)

/-- R150 (a) and (c): once the dimension checks pass, SOLVE raises E_SINGULAR exactly when the matrix is singular,
and raises nothing else. -/
def Obligations.SolveRaisesSingularExactlyWhenSingular : Prop :=
  ∀ (d : Byte) (s : State), Config.legalPoly s.poly = true → d ≠ 0 →
    (∀ r, r < d.toNat → s.mem.rowlen r = d) →
    ∃ t, exec (.solve d d d) s = .next t ∧
      (Nonsingular s.poly d.toNat s.mem.mat → t.err = ⟨0, 0, 0⟩) ∧
      (¬ Nonsingular s.poly d.toNat s.mem.mat →
        ∃ col : Byte, col.toNat < d.toNat ∧ t.err = ⟨3, 0, col⟩ ∧ t.result = 0)

/-- SOLVE changes at most MAT rows 0..D-1 in columns 0..D-1 and CONST[0..D-1], whatever its outcome (R147, R148,
R257), and of the registers only RESULT, ERR, DONE and BUSY. -/
def Obligations.SolveWritesOnlyItsSystem : Prop :=
  ∀ (d r c : Byte) (s : State), ∃ t, exec (.solve d r c) s = .next t ∧
    t = { s with mem := t.mem, result := t.result, err := t.err, pending := none, done := true } ∧
    ∀ a, inMatBlock d.toNat d.toNat a = false → inConst d.toNat a = false → t.mem.read a = s.mem.read a

/-- R148: at E_SINGULAR in column col the columns before col are unit columns, and column col is 0 from row col
down: what R144 to R146 leave after those columns. -/
def Obligations.SingularSolveStopsInReducedForm : Prop :=
  ∀ (d r c : Byte) (s t : State), Config.legalPoly s.poly = true →
    exec (.solve d r c) s = .next t → t.err.ecode = 3 →
    t.err.info.toNat < d.toNat ∧
    (∀ i j, i < d.toNat → j < t.err.info.toNat → t.mem.mat i j = if i = j then 1 else 0) ∧
    (∀ i, t.err.info.toNat ≤ i → i < d.toNat → t.mem.mat i t.err.info.toNat = 0)

/-! ### Split/Combine coordinator -/

/-- The session commands in a state that R170 does not list for them complete with E_STATE and change nothing else;
a SPLIT_BYTE then draws nothing (R171, R173, R178, R179, R225). -/
def Obligations.SessionCommandsRefuseTheWrongState : Prop :=
  ∀ (s : State) (v : Byte),
    (s.sess ≠ .idle → exec .splitInit s = .next (s.errorEnd ⟨7, 0x01, 0⟩)) ∧
    (s.sess ≠ .idle → exec .combineInit s = .next (s.errorEnd ⟨7, 0x01, 0⟩)) ∧
    (s.sess ≠ .split → exec (.splitByte v) s = .next (s.errorEnd ⟨7, 0x02, 0⟩)) ∧
    (s.sess ≠ .combine → exec .combineByte s = .next (s.errorEnd ⟨7, 0x03, 0⟩))

/-- R171: SPLIT_INIT, each check in its order, and success. -/
def Obligations.SplitInitValidatesThenOpensASession : Prop :=
  ∀ s : State,
    let n := s.cfgN.toNat
    let k := s.cfgK.toNat
    (s.sess ≠ .idle → exec .splitInit s = .next (s.errorEnd ⟨7, 0x01, 0⟩)) ∧
    (s.sess = .idle →
      (k < 2 → exec .splitInit s = .next (s.errorEnd ⟨1, 0x01, 0⟩)) ∧
      (255 < k → exec .splitInit s = .next (s.errorEnd ⟨1, 0x02, 0⟩)) ∧
      (2 ≤ k → k ≤ 255 → 255 < n → exec .splitInit s = .next (s.errorEnd ⟨1, 0x03, 0⟩)) ∧
      (2 ≤ k → k ≤ 255 → n < k → exec .splitInit s = .next (s.errorEnd ⟨1, 0x04, 0⟩)) ∧
      (2 ≤ k → k ≤ n → n ≤ 255 → s.cfgL = 0 → exec .splitInit s = .next (s.errorEnd ⟨1, 0x05, 0⟩)) ∧
      (2 ≤ k → k ≤ n → n ≤ 255 → s.cfgL ≠ 0 → exec .splitInit s = .next ({ s with
        sessNP := BitVec.ofNat 8 n, sessKL := BitVec.ofNat 8 k, sessL := s.cfgL, sessJ := 0,
        sess := .split }.okEnd 0)))

/-- SPLIT_BYTE when every draw answers a byte (R173, R175, R176): the rows, their lengths, the draws used, the
session's progress, and nothing else changed. The list of answers and the count of draws are the model's (log entry
3). -/
def Obligations.SplitByteGeneratesTheShareRows : Prop :=
  ∀ (v : Byte) (s : State), s.sess = .split → s.SessionLegal →
    let n := s.sessNP.toNat
    let k := s.sessKL.toNat
    (∀ j, j < n * (k - 1) → ∃ b, s.answer j = .byte b) →
    ∃ t, exec (.splitByte v) s = .next t ∧
      t = { s with
        mem := t.mem, rng := s.rng.drop (n * (k - 1)), draws := s.draws + n * (k - 1),
        sessJ := s.sessJ + 1,
        sess := if s.sessJ + 1 = s.sessL then .idle else .split }.okEnd 0 ∧
      (∀ p i, p < n → i < k - 1 → s.answer (p * (k - 1) + i) = .byte (t.mem.mat p i)) ∧
      (∀ p, p < n → t.mem.mat p (k - 1) = gfMul s.poly (t.mem.mat p 0) v ∧ t.mem.rowlen p = s.sessKL) ∧
      (∀ a, inMatBlock n k a = false → inRowlen n a = false → t.mem.read a = s.mem.read a)

/-- R177: SPLIT_BYTE when the draw for coefficient i of party p is the first to fail. -/
def Obligations.FailedDrawClearsTheOutputAndAborts : Prop :=
  ∀ (v p i : Byte) (s : State), s.sess = .split → s.SessionLegal →
    let n := s.sessNP.toNat
    let k := s.sessKL.toNat
    let j := p.toNat * (k - 1) + i.toNat
    p.toNat < n → i.toNat < k - 1 → s.answer j = .fail → (∀ j', j' < j → ∃ b, s.answer j' = .byte b) →
    ∃ t, exec (.splitByte v) s = .next t ∧
      t = { s with
        mem := t.mem, rng := s.rng.drop (j + 1), draws := s.draws + (j + 1),
        sess := .idle }.errorEnd ⟨4, i, p⟩ ∧
      (∀ q c, q < n → c < k → t.mem.mat q c = 0) ∧ (∀ q, q < n → t.mem.rowlen q = 0) ∧
      (∀ a, inMatBlock n k a = false → inRowlen n a = false → t.mem.read a = s.mem.read a)

/-- R178: COMBINE_INIT, each check in its order, and success. -/
def Obligations.CombineInitValidatesThenOpensASession : Prop :=
  ∀ s : State,
    let n := s.cfgP.toNat
    (s.sess ≠ .idle → exec .combineInit s = .next (s.errorEnd ⟨7, 0x01, 0⟩)) ∧
    (s.sess = .idle →
      (n = 0 → exec .combineInit s = .next (s.errorEnd ⟨1, 0x06, 0⟩)) ∧
      (n = 1 → exec .combineInit s = .next (s.errorEnd ⟨1, 0x07, 0⟩)) ∧
      (255 < n → exec .combineInit s = .next (s.errorEnd ⟨1, 0x08, 0⟩)) ∧
      (2 ≤ n → n ≤ 255 → ∀ p : Byte, p.toNat < n → s.mem.olen p.toNat ≠ s.mem.olen 0 →
        (∀ q, q < p.toNat → s.mem.olen q = s.mem.olen 0) →
        exec .combineInit s = .next (s.errorEnd ⟨1, 0x09, p⟩)) ∧
      (2 ≤ n → n ≤ 255 → (∀ q, q < n → s.mem.olen q = s.mem.olen 0) →
        exec .combineInit s = .next ({ s with
          sessNP := BitVec.ofNat 8 n, sessKL := 0, sessL := s.mem.olen 0, sessJ := 0,
          sess := if s.mem.olen 0 = 0 then .idle else .combine }.okEnd 0)))

/-- The checks COMBINE_BYTE makes before it writes a buffer, in their order (R179, R214, R188). -/
def Obligations.CombineByteChecksTheSharesFirst : Prop :=
  ∀ s : State, s.sess = .combine →
    let n := s.sessNP.toNat
    let aborted := { s with sess := .idle }
    (∀ p : Byte, p.toNat < n → s.mem.rowlen p.toNat ≠ s.mem.rowlen 0 →
      (∀ q, q < p.toNat → s.mem.rowlen q = s.mem.rowlen 0) →
      exec .combineByte s = .next (aborted.errorEnd ⟨1, 0x0A, p⟩)) ∧
    ((∀ q, q < n → s.mem.rowlen q = s.mem.rowlen 0) → n < (s.mem.rowlen 0).toNat →
      exec .combineByte s = .next (aborted.errorEnd ⟨2, 0x01, s.sessNP⟩)) ∧
    ((∀ q, q < n → s.mem.rowlen q = s.mem.rowlen 0) → s.mem.rowlen 0 = 0 →
      exec .combineByte s = .next (aborted.errorEnd ⟨2, 0x04, 0⟩))

/-- COMBINE_BYTE of a nonsingular system (R179, R180, R147): it completes with coordinate 0 of the one solution of
the equations its first D rows stand for, counts the byte, and changes nothing outside that system. -/
def Obligations.CombineByteSolvesTheShareSystem : Prop :=
  ∀ (d : Byte) (s : State), Config.legalPoly s.poly = true → s.sess = .combine → d ≠ 0 →
    d.toNat ≤ s.sessNP.toNat → (∀ p, p < s.sessNP.toNat → s.mem.rowlen p = d) →
    Nonsingular s.poly d.toNat (shareMatrix s.mem d.toNat) →
    ∃ t, exec .combineByte s = .next t ∧
      t = { s with
        mem := t.mem, sessJ := s.sessJ + 1,
        sess := if s.sessJ + 1 = s.sessL then .idle else .combine }.okEnd (t.mem.const 0) ∧
      (∀ r c, r < d.toNat → c < d.toNat → t.mem.mat r c = if r = c then 1 else 0) ∧
      (∀ x, Solves s.poly d.toNat (shareMatrix s.mem d.toNat) (shareConst s.mem d.toNat) x ↔
        ∀ i, i < d.toNat → x i = t.mem.const i) ∧
      (∀ a, inMatBlock d.toNat d.toNat a = false → inConst d.toNat a = false →
        t.mem.read a = s.mem.read a)

/-- COMBINE_BYTE of a singular system closes the session with E_SINGULAR; J keeps its value and nothing outside the
system changes (R170, R179, R148). -/
def Obligations.SingularCombineByteAborts : Prop :=
  ∀ (d : Byte) (s : State), Config.legalPoly s.poly = true → s.sess = .combine → d ≠ 0 →
    d.toNat ≤ s.sessNP.toNat → (∀ p, p < s.sessNP.toNat → s.mem.rowlen p = d) →
    ¬ Nonsingular s.poly d.toNat (shareMatrix s.mem d.toNat) →
    ∃ t, ∃ col : Byte, exec .combineByte s = .next t ∧ col.toNat < d.toNat ∧
      t = { s with mem := t.mem, sess := .idle }.errorEnd ⟨3, 0, col⟩ ∧
      (∀ a, inMatBlock d.toNat d.toNat a = false → inConst d.toNat a = false →
        t.mem.read a = s.mem.read a)

/-- R182: from rows a SPLIT_BYTE(v) makes (R175: the constant `MUL(c_0, v)` in column K-1), of any parties in any
order, COMBINE_BYTE gives v exactly when the system is nonsingular, and E_SINGULAR otherwise. -/
def Obligations.CombineByteRecoversTheSplitByte : Prop :=
  ∀ (v k : Byte) (s : State), Config.legalPoly s.poly = true → s.sess = .combine →
    2 ≤ k.toNat → k.toNat ≤ s.sessNP.toNat →
    (∀ p, p < s.sessNP.toNat → s.mem.rowlen p = k ∧
      s.mem.mat p (k.toNat - 1) = gfMul s.poly (s.mem.mat p 0) v) →
    ∃ t, exec .combineByte s = .next t ∧
      (Nonsingular s.poly k.toNat (shareMatrix s.mem k.toNat) → t.err = ⟨0, 0, 0⟩ ∧ t.result = v) ∧
      (¬ Nonsingular s.poly k.toNat (shareMatrix s.mem k.toNat) →
        t.err.ecode = 3 ∧ t.err.sub = 0 ∧ t.result = 0)

/-- R181: only the first D rows, D the first row's length, and the supplied rows' lengths count: buffers that agree
there give the same RESULT, ERR and session. -/
def Obligations.CombineByteUsesTheFirstRowsOnly : Prop :=
  ∀ (s : State) (m : Memory), s.SessionLegal →
    (∀ p, p < s.sessNP.toNat → m.rowlen p = s.mem.rowlen p) →
    (∀ r c, r < (s.mem.rowlen 0).toNat → c < (s.mem.rowlen 0).toNat → m.mat r c = s.mem.mat r c) →
    ∃ t u, exec .combineByte s = .next t ∧ exec .combineByte { s with mem := m } = .next u ∧
      t.result = u.result ∧ t.err = u.err ∧ t.sess = u.sess ∧ t.sessJ = u.sessJ

/-- R183: any one share row with c_0 ≠ 0 gives the secret byte away. -/
def Obligations.OneShareRowGivesTheSecretAway : Prop :=
  ∀ (v : Byte) (s t : State) (p : Nat), Config.legalPoly s.poly = true → s.sess = .split → s.SessionLegal →
    exec (.splitByte v) s = .next t → t.err.ecode = 0 → p < s.sessNP.toNat → t.mem.mat p 0 ≠ 0 →
    gfDiv s.poly (t.mem.mat p (s.sessKL.toNat - 1)) (t.mem.mat p 0) = v

/-- R184: for K = 2 the first two rows form a singular system exactly when their coefficients are equal. -/
def Obligations.TwoRowSystemIsSingularExactlyOnEqualCoefficients : Prop :=
  ∀ s : State, Config.legalPoly s.poly = true → s.sess = .combine → 2 ≤ s.sessNP.toNat →
    (∀ p, p < s.sessNP.toNat → s.mem.rowlen p = 2) →
    ∃ t, exec .combineByte s = .next t ∧ (t.err.ecode = 3 ↔ s.mem.mat 0 0 = s.mem.mat 1 0) ∧
      (t.err.ecode ≠ 3 → t.err = ⟨0, 0, 0⟩)

/-! ### The host's protocols -/

/-- R187: a HOST_SPLIT that succeeds returns N shares of len(secret) rows of K bytes. -/
def Obligations.SplitSharesHaveTheStatedShape : Prop :=
  ∀ (secret : List Byte) (n k : Nat) (s t : State) (shares : List Share),
    hostSplit secret n k s = .ok shares t →
    shares.length = n ∧ ∀ sh ∈ shares, sh.length = secret.length ∧ ∀ row ∈ sh, row.length = k

/-- A HOST_COMBINE of shares of one HOST_SPLIT, any of them in any order on an idle block of the same polynomial,
returns the secret if it returns anything (R182, R185, R186). In the model's protocols WAIT is the completion itself,
and no other master and no reset acts during one (log entry 16). -/
def Obligations.CombinedSharesGiveTheSecretBack : Prop :=
  ∀ (secret : List Byte) (n k : Nat) (s t u v : State) (shares parts : List Share) (out : List Byte),
    Config.legalPoly s.poly = true → s.pending = none → hostSplit secret n k s = .ok shares t →
    (∀ sh ∈ parts, sh ∈ shares) → u.poly = s.poly → u.pending = none →
    hostCombine parts u = .ok out v → out = secret
end

