-- ==== Sys2Proof/Laws/Memory.lean ====
section
/-! SUPPORT. The laws of the buffers' byte memory: a read after a write, and that every memory operation keeps
the canonical form. -/

namespace Sys2Proof.Machine

theorem lookupCell_putCell (l : List Host.Cell) (a b : Nat) (v : Byte) :
    lookupCell (putCell l a v) b = if b = a then some v else lookupCell l b := by
  induction l with
  | nil =>
    simp only [putCell, lookupCell, eq_comm (a := a)]
  | cons c rest ih =>
    simp only [putCell]
    split_ifs with h1 h2 h3 h4 h5
    · simp [lookupCell, h2]
    · simp [lookupCell, Ne.symm h2]
    · simp [lookupCell, h4]
    · subst h3; simp [lookupCell, Ne.symm h4]
    · simp only [lookupCell, ih, if_pos h5]
      rw [if_neg (by omega)]
    · simp only [lookupCell, ih, if_neg h5]

/-- Reading byte `b` after writing byte `a`. -/
theorem Memory.read_write (m : Memory) (a b : Nat) (v : Byte) :
    (m.write a v).read b = if b = a then v else m.read b := by
  simp only [Memory.read, Memory.write, lookupCell_putCell, Memory.unlisted]
  split_ifs <;> rfl

@[simp] theorem Memory.read_write_same (m : Memory) (a : Nat) (v : Byte) : (m.write a v).read a = v := by
  rw [Memory.read_write, if_pos rfl]

theorem Memory.read_write_other (m : Memory) {a b : Nat} (v : Byte) (h : b ≠ a) :
    (m.write a v).read b = m.read b := by
  rw [Memory.read_write, if_neg h]

theorem mem_putCell (l : List Host.Cell) (a : Nat) (v : Byte) (c : Host.Cell)
    (h : c ∈ putCell l a v) : c = (a, v) ∨ c ∈ l := by
  induction l with
  | nil => simpa [putCell] using h
  | cons d rest ih =>
    simp only [putCell] at h
    split_ifs at h
    · simpa using h
    · rcases List.mem_cons.mp h with h | h
      · exact .inl h
      · exact .inr (List.mem_cons_of_mem _ h)
    · rcases List.mem_cons.mp h with h | h
      · exact .inr (h ▸ List.mem_cons_self)
      · exact (ih h).imp id (List.mem_cons_of_mem _)

theorem putCell_sorted (l : List Host.Cell) (a : Nat) (v : Byte)
    (h : l.Pairwise (fun x y => x.1 < y.1)) : (putCell l a v).Pairwise (fun x y => x.1 < y.1) := by
  induction l with
  | nil => simp [putCell]
  | cons c rest ih =>
    have ⟨hc, hr⟩ := List.pairwise_cons.mp h
    simp only [putCell]
    split_ifs with h1 h2
    · refine List.pairwise_cons.mpr ⟨fun d hd => ?_, h⟩
      rcases List.mem_cons.mp hd with rfl | hd
      · exact h1
      · exact h1.trans (hc d hd)
    · exact List.pairwise_cons.mpr ⟨fun d hd => h2 ▸ hc d hd, hr⟩
    · refine List.pairwise_cons.mpr ⟨fun d hd => ?_, ih hr⟩
      rcases mem_putCell rest a v d hd with rfl | hd
      · simp only; omega
      · exact hc d hd

/-- A write to a buffer's byte keeps the canonical form. -/
theorem Memory.write_wf {m : Memory} (h : m.wf) {a : Nat} (ha : isBufAddr a = true) (v : Byte) :
    (m.write a v).wf :=
  ⟨putCell_sorted _ _ _ h.1, fun c hc => by
    rcases mem_putCell _ _ _ _ hc with rfl | hc
    · exact ha
    · exact h.2 c hc⟩

theorem Memory.redrawByteBufs_wf {m : Memory} (h : m.wf) : m.redrawByteBufs.wf :=
  ⟨h.1.filter _, fun c hc => h.2 c (List.mem_filter.mp hc).1⟩

theorem Memory.redrawAll_wf (m : Memory) : m.redrawAll.wf :=
  ⟨List.Pairwise.nil, fun _ h => absurd h List.not_mem_nil⟩

/-- After a reset while BUSY an OLEN byte reads as before. -/
theorem Memory.read_redrawByteBufs_olen (m : Memory) {a : Nat} (ha : isOlenAddr a = true) :
    m.redrawByteBufs.read a = m.read a := by
  have : lookupCell (m.cells.filter (fun c => isOlenAddr c.1)) a = lookupCell m.cells a := by
    induction m.cells with
    | nil => rfl
    | cons c rest ih =>
      by_cases hc : c.1 = a
      · simp [hc, ha, lookupCell]
      · by_cases ho : isOlenAddr c.1 = true
        · simp [ho, lookupCell, hc, ih]
        · simp [ho, lookupCell, hc, ih]
  simp [Memory.read, Memory.unlisted, Memory.redrawByteBufs, ha, this]

/-! ### The places of the buffers' elements -/

theorem matAddr_inj {r c r' c' : Nat} (hc : c < 256) (hc' : c' < 256) :
    matAddr r c = matAddr r' c' ↔ r = r' ∧ c = c' := by
  simp only [matAddr]; omega

theorem constAddr_ne_matAddr {i r c : Nat} (hi : i < 256) : constAddr i ≠ matAddr r c := by
  simp only [constAddr, matAddr]; omega

theorem rowlenAddr_ne_matAddr {i r c : Nat} (hi : i < 256) : rowlenAddr i ≠ matAddr r c := by
  simp only [rowlenAddr, matAddr]; omega

theorem rowlenAddr_ne_constAddr {i j : Nat} (hi : i < 256) : rowlenAddr i ≠ constAddr j := by
  simp only [rowlenAddr, constAddr]; omega

theorem isOlenAddr_iff (a : Nat) : isOlenAddr a = true ↔ 0x800 ≤ a ∧ a < 0xC00 := by
  simp [isOlenAddr]

theorem isByteBufAddr_iff (a : Nat) :
    isByteBufAddr a = true ↔ (0x100 ≤ a ∧ a < 0x300) ∨ (0x10000 ≤ a ∧ a < 0x20000) := by
  simp [isByteBufAddr]

theorem isBufAddr_iff (a : Nat) :
    isBufAddr a = true ↔
      ((0x100 ≤ a ∧ a < 0x300) ∨ (0x10000 ≤ a ∧ a < 0x20000)) ∨ (0x800 ≤ a ∧ a < 0xC00) := by
  rw [isBufAddr, Bool.or_eq_true, isByteBufAddr_iff, isOlenAddr_iff]

theorem isBufAddr_matAddr {r c : Nat} (hr : r < 256) (hc : c < 256) : isBufAddr (matAddr r c) = true := by
  rw [isBufAddr_iff, matAddr]; omega

theorem isBufAddr_constAddr {i : Nat} (hi : i < 256) : isBufAddr (constAddr i) = true := by
  rw [isBufAddr_iff, constAddr]; omega

theorem isBufAddr_rowlenAddr {i : Nat} (hi : i < 256) : isBufAddr (rowlenAddr i) = true := by
  rw [isBufAddr_iff, rowlenAddr]; omega

/-- `MAT[r'][c']` after `MAT[r][c] <- v`. -/
theorem Memory.mat_setMat (m : Memory) {r c r' c' : Nat} (v : Byte) (hc : c < 256) (hc' : c' < 256) :
    (m.setMat r c v).mat r' c' = if r' = r ∧ c' = c then v else m.mat r' c' := by
  simp only [Memory.mat, Memory.setMat, Memory.read_write, matAddr_inj hc' hc]

/-- `CONST[j]` after `CONST[i] <- v`. -/
theorem Memory.const_setConst (m : Memory) (i j : Nat) (v : Byte) :
    (m.setConst i v).const j = if j = i then v else m.const j := by
  simp only [Memory.const, Memory.setConst, Memory.read_write, constAddr, Nat.add_left_cancel_iff]

theorem Memory.const_setMat (m : Memory) {r c i : Nat} (v : Byte) (hi : i < 256) :
    (m.setMat r c v).const i = m.const i :=
  Memory.read_write_other m v (constAddr_ne_matAddr hi)

theorem Memory.mat_setConst (m : Memory) {r c i : Nat} (v : Byte) (hi : i < 256) :
    (m.setConst i v).mat r c = m.mat r c :=
  Memory.read_write_other m v (constAddr_ne_matAddr hi).symm

theorem Memory.rowlen_setMat (m : Memory) {r c i : Nat} (v : Byte) (hi : i < 256) :
    (m.setMat r c v).rowlen i = m.rowlen i :=
  Memory.read_write_other m v (rowlenAddr_ne_matAddr hi)

theorem Memory.mat_setRowlen (m : Memory) {r c i : Nat} (v : Byte) (hi : i < 256) :
    (m.setRowlen i v).mat r c = m.mat r c :=
  Memory.read_write_other m v (rowlenAddr_ne_matAddr hi).symm

theorem Memory.rowlen_setConst (m : Memory) {i j : Nat} (v : Byte) (hi : i < 256) :
    (m.setConst j v).rowlen i = m.rowlen i :=
  Memory.read_write_other m v (rowlenAddr_ne_constAddr hi)

theorem Memory.rowlen_setRowlen (m : Memory) (i j : Nat) (v : Byte) :
    (m.setRowlen i v).rowlen j = if j = i then v else m.rowlen j := by
  simp only [Memory.rowlen, Memory.setRowlen, Memory.read_write, rowlenAddr, Nat.add_left_cancel_iff]

end Sys2Proof.Machine
end

