-- ==== Sys2Proof/Laws/Loops.lean ====
section
/-! SUPPORT. The laws of the pseudocode's loop: an invariant of the body is one of the loop, and what a loop
of writes to distinct places leaves at every place. -/

namespace Sys2Proof.Machine

@[simp] theorem forUp_zero {σ : Type} (f : Nat → σ → σ) (s : σ) : forUp 0 f s = s := rfl

theorem forUp_succ {σ : Type} (n : Nat) (f : Nat → σ → σ) (s : σ) :
    forUp (n + 1) f s = f n (forUp n f s) := rfl

/-- What holds before the loop and is kept by every pass holds after it. -/
theorem forUp_invariant {σ : Type} (P : Nat → σ → Prop) {n : Nat} {f : Nat → σ → σ} {s : σ}
    (h0 : P 0 s) (hs : ∀ i t, i < n → P i t → P (i + 1) (f i t)) : P n (forUp n f s) := by
  induction n with
  | zero => exact h0
  | succ n ih => exact hs n _ (Nat.lt_succ_self n) (ih fun i t hi => hs i t (hi.trans (Nat.lt_succ_self n)))

/-- A loop that writes `V c` to the place `addr c` for `c < n`, all places distinct, where `V c` does not read
a place an earlier pass wrote: each place holds its value, computed from the memory before the loop, and every
other byte reads as before. -/
theorem forUp_write {n : Nat} {addr : Nat → Nat} {V : Nat → Memory → Byte} {m : Memory}
    (hinj : ∀ i j, i < n → j < n → addr i = addr j → i = j)
    (hdep : ∀ c x, c < n → (∀ a, (∀ i, i < c → a ≠ addr i) → x.read a = m.read a) → V c x = V c m) :
    (∀ c, c < n → (forUp n (fun c x => x.write (addr c) (V c x)) m).read (addr c) = V c m) ∧
    ∀ a, (∀ c, c < n → a ≠ addr c) → (forUp n (fun c x => x.write (addr c) (V c x)) m).read a = m.read a := by
  refine forUp_invariant
    (P := fun (k : Nat) (x : Memory) => (∀ c, c < k → x.read (addr c) = V c m) ∧
      ∀ a, (∀ c, c < k → a ≠ addr c) → x.read a = m.read a)
    ⟨fun c hc => absurd hc (Nat.not_lt_zero c), fun _ _ => rfl⟩ ?_
  intro i x hi ⟨hw, hr⟩
  have hV : V i x = V i m := hdep i x hi hr
  refine ⟨fun c hc => ?_, fun a ha => ?_⟩
  · rcases Nat.lt_succ_iff_lt_or_eq.mp hc with hc | rfl
    · rw [Memory.read_write_other _ _ (fun h => ?_), hw c hc]
      exact absurd (hinj c i (hc.trans hi) hi h) (Nat.ne_of_lt hc)
    · rw [Memory.read_write_same, hV]
  · rw [Memory.read_write_other _ _ (ha i (Nat.lt_succ_self i)), hr a fun c hc => ha c (hc.trans (Nat.lt_succ_self i))]

/-- A loop of operations that keep the canonical form keeps it. -/
theorem forUp_wf {n : Nat} {f : Nat → Memory → Memory} {m : Memory} (h : m.wf)
    (hf : ∀ i x, i < n → x.wf → (f i x).wf) : (forUp n f m).wf :=
  forUp_invariant (P := fun _ (x : Memory) => x.wf) h (fun i x hi hx => hf i x hi hx)

/-- A loop of operations that leave byte `a` alone leaves it alone. -/
theorem forUp_read_unchanged {n : Nat} {f : Nat → Memory → Memory} {m : Memory} {a : Nat}
    (hf : ∀ i x, i < n → (f i x).read a = x.read a) : (forUp n f m).read a = m.read a :=
  forUp_invariant (P := fun _ (x : Memory) => x.read a = m.read a) rfl (fun i x hi hx => (hf i x hi).trans hx)

end Sys2Proof.Machine
end

