-- ==== Sys2Proof/Laws/State.lean ====
section
/-! SUPPORT. What each update of the state does to each field, one lemma per field per update, so that no
later proof unfolds a record update. -/

namespace Sys2Proof.Machine

variable (s : State)

/-! ### `State.setMem` -/

@[simp] theorem State.setMem_ie (m : Memory) : (s.setMem m).ie = s.ie := rfl
@[simp] theorem State.setMem_done (m : Memory) : (s.setMem m).done = s.done := rfl
@[simp] theorem State.setMem_ovr (m : Memory) : (s.setMem m).ovr = s.ovr := rfl
@[simp] theorem State.setMem_cmd (m : Memory) : (s.setMem m).cmd = s.cmd := rfl
@[simp] theorem State.setMem_result (m : Memory) : (s.setMem m).result = s.result := rfl
@[simp] theorem State.setMem_err (m : Memory) : (s.setMem m).err = s.err := rfl
@[simp] theorem State.setMem_cfgN (m : Memory) : (s.setMem m).cfgN = s.cfgN := rfl
@[simp] theorem State.setMem_cfgK (m : Memory) : (s.setMem m).cfgK = s.cfgK := rfl
@[simp] theorem State.setMem_cfgL (m : Memory) : (s.setMem m).cfgL = s.cfgL := rfl
@[simp] theorem State.setMem_cfgP (m : Memory) : (s.setMem m).cfgP = s.cfgP := rfl
@[simp] theorem State.setMem_sess (m : Memory) : (s.setMem m).sess = s.sess := rfl
@[simp] theorem State.setMem_sessJ (m : Memory) : (s.setMem m).sessJ = s.sessJ := rfl
@[simp] theorem State.setMem_sessL (m : Memory) : (s.setMem m).sessL = s.sessL := rfl
@[simp] theorem State.setMem_sessNP (m : Memory) : (s.setMem m).sessNP = s.sessNP := rfl
@[simp] theorem State.setMem_sessKL (m : Memory) : (s.setMem m).sessKL = s.sessKL := rfl
@[simp] theorem State.setMem_pending (m : Memory) : (s.setMem m).pending = s.pending := rfl
@[simp] theorem State.setMem_mem (m : Memory) : (s.setMem m).mem = m := rfl
@[simp] theorem State.setMem_poly (m : Memory) : (s.setMem m).poly = s.poly := rfl
@[simp] theorem State.setMem_rng (m : Memory) : (s.setMem m).rng = s.rng := rfl
@[simp] theorem State.setMem_draws (m : Memory) : (s.setMem m).draws = s.draws := rfl
@[simp] theorem State.setMem_busyReads (m : Memory) : (s.setMem m).busyReads = s.busyReads := rfl
@[simp] theorem State.setMem_inputs (m : Memory) : (s.setMem m).inputs = s.inputs := rfl
@[simp] theorem State.setMem_reply (m : Memory) : (s.setMem m).reply = s.reply := rfl

/-! ### `State.setSess` -/

@[simp] theorem State.setSess_ie (x : Sess) : (s.setSess x).ie = s.ie := rfl
@[simp] theorem State.setSess_done (x : Sess) : (s.setSess x).done = s.done := rfl
@[simp] theorem State.setSess_ovr (x : Sess) : (s.setSess x).ovr = s.ovr := rfl
@[simp] theorem State.setSess_cmd (x : Sess) : (s.setSess x).cmd = s.cmd := rfl
@[simp] theorem State.setSess_result (x : Sess) : (s.setSess x).result = s.result := rfl
@[simp] theorem State.setSess_err (x : Sess) : (s.setSess x).err = s.err := rfl
@[simp] theorem State.setSess_cfgN (x : Sess) : (s.setSess x).cfgN = s.cfgN := rfl
@[simp] theorem State.setSess_cfgK (x : Sess) : (s.setSess x).cfgK = s.cfgK := rfl
@[simp] theorem State.setSess_cfgL (x : Sess) : (s.setSess x).cfgL = s.cfgL := rfl
@[simp] theorem State.setSess_cfgP (x : Sess) : (s.setSess x).cfgP = s.cfgP := rfl
@[simp] theorem State.setSess_sess (x : Sess) : (s.setSess x).sess = x := rfl
@[simp] theorem State.setSess_sessJ (x : Sess) : (s.setSess x).sessJ = s.sessJ := rfl
@[simp] theorem State.setSess_sessL (x : Sess) : (s.setSess x).sessL = s.sessL := rfl
@[simp] theorem State.setSess_sessNP (x : Sess) : (s.setSess x).sessNP = s.sessNP := rfl
@[simp] theorem State.setSess_sessKL (x : Sess) : (s.setSess x).sessKL = s.sessKL := rfl
@[simp] theorem State.setSess_pending (x : Sess) : (s.setSess x).pending = s.pending := rfl
@[simp] theorem State.setSess_mem (x : Sess) : (s.setSess x).mem = s.mem := rfl
@[simp] theorem State.setSess_poly (x : Sess) : (s.setSess x).poly = s.poly := rfl
@[simp] theorem State.setSess_rng (x : Sess) : (s.setSess x).rng = s.rng := rfl
@[simp] theorem State.setSess_draws (x : Sess) : (s.setSess x).draws = s.draws := rfl
@[simp] theorem State.setSess_busyReads (x : Sess) : (s.setSess x).busyReads = s.busyReads := rfl
@[simp] theorem State.setSess_inputs (x : Sess) : (s.setSess x).inputs = s.inputs := rfl
@[simp] theorem State.setSess_reply (x : Sess) : (s.setSess x).reply = s.reply := rfl

/-! ### `State.issue` -/

@[simp] theorem State.issue_ie (w : Word) : (s.issue w).ie = s.ie := rfl
@[simp] theorem State.issue_done (w : Word) : (s.issue w).done = false := rfl
@[simp] theorem State.issue_ovr (w : Word) : (s.issue w).ovr = s.ovr := rfl
@[simp] theorem State.issue_cmd (w : Word) : (s.issue w).cmd = w := rfl
@[simp] theorem State.issue_result (w : Word) : (s.issue w).result = s.result := rfl
@[simp] theorem State.issue_err (w : Word) : (s.issue w).err = s.err := rfl
@[simp] theorem State.issue_cfgN (w : Word) : (s.issue w).cfgN = s.cfgN := rfl
@[simp] theorem State.issue_cfgK (w : Word) : (s.issue w).cfgK = s.cfgK := rfl
@[simp] theorem State.issue_cfgL (w : Word) : (s.issue w).cfgL = s.cfgL := rfl
@[simp] theorem State.issue_cfgP (w : Word) : (s.issue w).cfgP = s.cfgP := rfl
@[simp] theorem State.issue_sess (w : Word) : (s.issue w).sess = s.sess := rfl
@[simp] theorem State.issue_sessJ (w : Word) : (s.issue w).sessJ = s.sessJ := rfl
@[simp] theorem State.issue_sessL (w : Word) : (s.issue w).sessL = s.sessL := rfl
@[simp] theorem State.issue_sessNP (w : Word) : (s.issue w).sessNP = s.sessNP := rfl
@[simp] theorem State.issue_sessKL (w : Word) : (s.issue w).sessKL = s.sessKL := rfl
@[simp] theorem State.issue_pending (w : Word) : (s.issue w).pending = some w := rfl
@[simp] theorem State.issue_mem (w : Word) : (s.issue w).mem = s.mem := rfl
@[simp] theorem State.issue_poly (w : Word) : (s.issue w).poly = s.poly := rfl
@[simp] theorem State.issue_rng (w : Word) : (s.issue w).rng = s.rng := rfl
@[simp] theorem State.issue_draws (w : Word) : (s.issue w).draws = s.draws := rfl
@[simp] theorem State.issue_busyReads (w : Word) : (s.issue w).busyReads = s.busyReads := rfl
@[simp] theorem State.issue_inputs (w : Word) : (s.issue w).inputs = s.inputs := rfl
@[simp] theorem State.issue_reply (w : Word) : (s.issue w).reply = s.reply := rfl

/-! ### `State.complete` -/

@[simp] theorem State.complete_ie (v : Byte) : (s.complete v).ie = s.ie := rfl
@[simp] theorem State.complete_done (v : Byte) : (s.complete v).done = true := rfl
@[simp] theorem State.complete_ovr (v : Byte) : (s.complete v).ovr = s.ovr := rfl
@[simp] theorem State.complete_cmd (v : Byte) : (s.complete v).cmd = s.cmd := rfl
@[simp] theorem State.complete_result (v : Byte) : (s.complete v).result = v := rfl
@[simp] theorem State.complete_err (v : Byte) : (s.complete v).err = ⟨0, 0, 0⟩ := rfl
@[simp] theorem State.complete_cfgN (v : Byte) : (s.complete v).cfgN = s.cfgN := rfl
@[simp] theorem State.complete_cfgK (v : Byte) : (s.complete v).cfgK = s.cfgK := rfl
@[simp] theorem State.complete_cfgL (v : Byte) : (s.complete v).cfgL = s.cfgL := rfl
@[simp] theorem State.complete_cfgP (v : Byte) : (s.complete v).cfgP = s.cfgP := rfl
@[simp] theorem State.complete_sess (v : Byte) : (s.complete v).sess = s.sess := rfl
@[simp] theorem State.complete_sessJ (v : Byte) : (s.complete v).sessJ = s.sessJ := rfl
@[simp] theorem State.complete_sessL (v : Byte) : (s.complete v).sessL = s.sessL := rfl
@[simp] theorem State.complete_sessNP (v : Byte) : (s.complete v).sessNP = s.sessNP := rfl
@[simp] theorem State.complete_sessKL (v : Byte) : (s.complete v).sessKL = s.sessKL := rfl
@[simp] theorem State.complete_pending (v : Byte) : (s.complete v).pending = none := rfl
@[simp] theorem State.complete_mem (v : Byte) : (s.complete v).mem = s.mem := rfl
@[simp] theorem State.complete_poly (v : Byte) : (s.complete v).poly = s.poly := rfl
@[simp] theorem State.complete_rng (v : Byte) : (s.complete v).rng = s.rng := rfl
@[simp] theorem State.complete_draws (v : Byte) : (s.complete v).draws = s.draws := rfl
@[simp] theorem State.complete_busyReads (v : Byte) : (s.complete v).busyReads = s.busyReads := rfl
@[simp] theorem State.complete_inputs (v : Byte) : (s.complete v).inputs = s.inputs := rfl
@[simp] theorem State.complete_reply (v : Byte) : (s.complete v).reply = s.reply := rfl

/-! ### `State.raise` -/

@[simp] theorem State.raise_ie (c : Cause) : (s.raise c).ie = s.ie := rfl
@[simp] theorem State.raise_done (c : Cause) : (s.raise c).done = true := rfl
@[simp] theorem State.raise_ovr (c : Cause) : (s.raise c).ovr = s.ovr := rfl
@[simp] theorem State.raise_cmd (c : Cause) : (s.raise c).cmd = s.cmd := rfl
@[simp] theorem State.raise_result (c : Cause) : (s.raise c).result = 0 := rfl
@[simp] theorem State.raise_err (c : Cause) : (s.raise c).err = c.err := rfl
@[simp] theorem State.raise_cfgN (c : Cause) : (s.raise c).cfgN = s.cfgN := rfl
@[simp] theorem State.raise_cfgK (c : Cause) : (s.raise c).cfgK = s.cfgK := rfl
@[simp] theorem State.raise_cfgL (c : Cause) : (s.raise c).cfgL = s.cfgL := rfl
@[simp] theorem State.raise_cfgP (c : Cause) : (s.raise c).cfgP = s.cfgP := rfl
@[simp] theorem State.raise_sess (c : Cause) : (s.raise c).sess = s.sess := rfl
@[simp] theorem State.raise_sessJ (c : Cause) : (s.raise c).sessJ = s.sessJ := rfl
@[simp] theorem State.raise_sessL (c : Cause) : (s.raise c).sessL = s.sessL := rfl
@[simp] theorem State.raise_sessNP (c : Cause) : (s.raise c).sessNP = s.sessNP := rfl
@[simp] theorem State.raise_sessKL (c : Cause) : (s.raise c).sessKL = s.sessKL := rfl
@[simp] theorem State.raise_pending (c : Cause) : (s.raise c).pending = none := rfl
@[simp] theorem State.raise_mem (c : Cause) : (s.raise c).mem = s.mem := rfl
@[simp] theorem State.raise_poly (c : Cause) : (s.raise c).poly = s.poly := rfl
@[simp] theorem State.raise_rng (c : Cause) : (s.raise c).rng = s.rng := rfl
@[simp] theorem State.raise_draws (c : Cause) : (s.raise c).draws = s.draws := rfl
@[simp] theorem State.raise_busyReads (c : Cause) : (s.raise c).busyReads = s.busyReads := rfl
@[simp] theorem State.raise_inputs (c : Cause) : (s.raise c).inputs = s.inputs := rfl
@[simp] theorem State.raise_reply (c : Cause) : (s.raise c).reply = s.reply := rfl

/-! ### `State.advance` -/

@[simp] theorem State.advance_ie : s.advance.ie = s.ie := rfl
@[simp] theorem State.advance_done : s.advance.done = s.done := rfl
@[simp] theorem State.advance_ovr : s.advance.ovr = s.ovr := rfl
@[simp] theorem State.advance_cmd : s.advance.cmd = s.cmd := rfl
@[simp] theorem State.advance_result : s.advance.result = s.result := rfl
@[simp] theorem State.advance_err : s.advance.err = s.err := rfl
@[simp] theorem State.advance_cfgN : s.advance.cfgN = s.cfgN := rfl
@[simp] theorem State.advance_cfgK : s.advance.cfgK = s.cfgK := rfl
@[simp] theorem State.advance_cfgL : s.advance.cfgL = s.cfgL := rfl
@[simp] theorem State.advance_cfgP : s.advance.cfgP = s.cfgP := rfl
@[simp] theorem State.advance_sess : s.advance.sess = if s.sessJ + 1 = s.sessL then .idle else s.sess := rfl
@[simp] theorem State.advance_sessJ : s.advance.sessJ = s.sessJ + 1 := rfl
@[simp] theorem State.advance_sessL : s.advance.sessL = s.sessL := rfl
@[simp] theorem State.advance_sessNP : s.advance.sessNP = s.sessNP := rfl
@[simp] theorem State.advance_sessKL : s.advance.sessKL = s.sessKL := rfl
@[simp] theorem State.advance_pending : s.advance.pending = s.pending := rfl
@[simp] theorem State.advance_mem : s.advance.mem = s.mem := rfl
@[simp] theorem State.advance_poly : s.advance.poly = s.poly := rfl
@[simp] theorem State.advance_rng : s.advance.rng = s.rng := rfl
@[simp] theorem State.advance_draws : s.advance.draws = s.draws := rfl
@[simp] theorem State.advance_busyReads : s.advance.busyReads = s.busyReads := rfl
@[simp] theorem State.advance_inputs : s.advance.inputs = s.inputs := rfl
@[simp] theorem State.advance_reply : s.advance.reply = s.reply := rfl

/-! ### `State.drawn` -/

@[simp] theorem State.drawn_ie : s.drawn.ie = s.ie := rfl
@[simp] theorem State.drawn_done : s.drawn.done = s.done := rfl
@[simp] theorem State.drawn_ovr : s.drawn.ovr = s.ovr := rfl
@[simp] theorem State.drawn_cmd : s.drawn.cmd = s.cmd := rfl
@[simp] theorem State.drawn_result : s.drawn.result = s.result := rfl
@[simp] theorem State.drawn_err : s.drawn.err = s.err := rfl
@[simp] theorem State.drawn_cfgN : s.drawn.cfgN = s.cfgN := rfl
@[simp] theorem State.drawn_cfgK : s.drawn.cfgK = s.cfgK := rfl
@[simp] theorem State.drawn_cfgL : s.drawn.cfgL = s.cfgL := rfl
@[simp] theorem State.drawn_cfgP : s.drawn.cfgP = s.cfgP := rfl
@[simp] theorem State.drawn_sess : s.drawn.sess = s.sess := rfl
@[simp] theorem State.drawn_sessJ : s.drawn.sessJ = s.sessJ := rfl
@[simp] theorem State.drawn_sessL : s.drawn.sessL = s.sessL := rfl
@[simp] theorem State.drawn_sessNP : s.drawn.sessNP = s.sessNP := rfl
@[simp] theorem State.drawn_sessKL : s.drawn.sessKL = s.sessKL := rfl
@[simp] theorem State.drawn_pending : s.drawn.pending = s.pending := rfl
@[simp] theorem State.drawn_mem : s.drawn.mem = s.mem := rfl
@[simp] theorem State.drawn_poly : s.drawn.poly = s.poly := rfl
@[simp] theorem State.drawn_rng : s.drawn.rng = s.rng.tail := rfl
@[simp] theorem State.drawn_draws : s.drawn.draws = s.draws + 1 := rfl
@[simp] theorem State.drawn_busyReads : s.drawn.busyReads = s.busyReads := rfl
@[simp] theorem State.drawn_inputs : s.drawn.inputs = s.inputs := rfl
@[simp] theorem State.drawn_reply : s.drawn.reply = s.reply := rfl

/-! ### `State.resetRegs` -/

@[simp] theorem State.resetRegs_ie : s.resetRegs.ie = false := rfl
@[simp] theorem State.resetRegs_done : s.resetRegs.done = false := rfl
@[simp] theorem State.resetRegs_ovr : s.resetRegs.ovr = false := rfl
@[simp] theorem State.resetRegs_cmd : s.resetRegs.cmd = 0 := rfl
@[simp] theorem State.resetRegs_result : s.resetRegs.result = 0 := rfl
@[simp] theorem State.resetRegs_err : s.resetRegs.err = ⟨0, 0, 0⟩ := rfl
@[simp] theorem State.resetRegs_cfgN : s.resetRegs.cfgN = 0 := rfl
@[simp] theorem State.resetRegs_cfgK : s.resetRegs.cfgK = 0 := rfl
@[simp] theorem State.resetRegs_cfgL : s.resetRegs.cfgL = 0 := rfl
@[simp] theorem State.resetRegs_cfgP : s.resetRegs.cfgP = 0 := rfl
@[simp] theorem State.resetRegs_sess : s.resetRegs.sess = .idle := rfl
@[simp] theorem State.resetRegs_sessJ : s.resetRegs.sessJ = 0 := rfl
@[simp] theorem State.resetRegs_sessL : s.resetRegs.sessL = 0 := rfl
@[simp] theorem State.resetRegs_sessNP : s.resetRegs.sessNP = 0 := rfl
@[simp] theorem State.resetRegs_sessKL : s.resetRegs.sessKL = 0 := rfl
@[simp] theorem State.resetRegs_pending : s.resetRegs.pending = none := rfl
@[simp] theorem State.resetRegs_mem : s.resetRegs.mem = s.mem := rfl
@[simp] theorem State.resetRegs_poly : s.resetRegs.poly = s.poly := rfl
@[simp] theorem State.resetRegs_rng : s.resetRegs.rng = s.rng := rfl
@[simp] theorem State.resetRegs_draws : s.resetRegs.draws = s.draws := rfl
@[simp] theorem State.resetRegs_busyReads : s.resetRegs.busyReads = s.busyReads := rfl
@[simp] theorem State.resetRegs_inputs : s.resetRegs.inputs = s.inputs := rfl
@[simp] theorem State.resetRegs_reply : s.resetRegs.reply = s.reply := rfl

/-! ### `State.rst` -/

@[simp] theorem State.rst_ie : s.rst.ie = false := rfl
@[simp] theorem State.rst_done : s.rst.done = false := rfl
@[simp] theorem State.rst_ovr : s.rst.ovr = false := rfl
@[simp] theorem State.rst_cmd : s.rst.cmd = 0 := rfl
@[simp] theorem State.rst_result : s.rst.result = 0 := rfl
@[simp] theorem State.rst_err : s.rst.err = ⟨0, 0, 0⟩ := rfl
@[simp] theorem State.rst_cfgN : s.rst.cfgN = 0 := rfl
@[simp] theorem State.rst_cfgK : s.rst.cfgK = 0 := rfl
@[simp] theorem State.rst_cfgL : s.rst.cfgL = 0 := rfl
@[simp] theorem State.rst_cfgP : s.rst.cfgP = 0 := rfl
@[simp] theorem State.rst_sess : s.rst.sess = .idle := rfl
@[simp] theorem State.rst_sessJ : s.rst.sessJ = 0 := rfl
@[simp] theorem State.rst_sessL : s.rst.sessL = 0 := rfl
@[simp] theorem State.rst_sessNP : s.rst.sessNP = 0 := rfl
@[simp] theorem State.rst_sessKL : s.rst.sessKL = 0 := rfl
@[simp] theorem State.rst_pending : s.rst.pending = none := rfl
@[simp] theorem State.rst_mem : s.rst.mem = if s.pending.isSome then s.mem.redrawByteBufs else s.mem := rfl
@[simp] theorem State.rst_poly : s.rst.poly = s.poly := rfl
@[simp] theorem State.rst_rng : s.rst.rng = s.rng := rfl
@[simp] theorem State.rst_draws : s.rst.draws = s.draws := rfl
@[simp] theorem State.rst_busyReads : s.rst.busyReads = s.busyReads := rfl
@[simp] theorem State.rst_inputs : s.rst.inputs = s.inputs := rfl
@[simp] theorem State.rst_reply : s.rst.reply = s.reply := rfl

/-! ### `State.powerOn` -/

@[simp] theorem State.powerOn_ie : s.powerOn.ie = false := rfl
@[simp] theorem State.powerOn_done : s.powerOn.done = false := rfl
@[simp] theorem State.powerOn_ovr : s.powerOn.ovr = false := rfl
@[simp] theorem State.powerOn_cmd : s.powerOn.cmd = 0 := rfl
@[simp] theorem State.powerOn_result : s.powerOn.result = 0 := rfl
@[simp] theorem State.powerOn_err : s.powerOn.err = ⟨0, 0, 0⟩ := rfl
@[simp] theorem State.powerOn_cfgN : s.powerOn.cfgN = 0 := rfl
@[simp] theorem State.powerOn_cfgK : s.powerOn.cfgK = 0 := rfl
@[simp] theorem State.powerOn_cfgL : s.powerOn.cfgL = 0 := rfl
@[simp] theorem State.powerOn_cfgP : s.powerOn.cfgP = 0 := rfl
@[simp] theorem State.powerOn_sess : s.powerOn.sess = .idle := rfl
@[simp] theorem State.powerOn_sessJ : s.powerOn.sessJ = 0 := rfl
@[simp] theorem State.powerOn_sessL : s.powerOn.sessL = 0 := rfl
@[simp] theorem State.powerOn_sessNP : s.powerOn.sessNP = 0 := rfl
@[simp] theorem State.powerOn_sessKL : s.powerOn.sessKL = 0 := rfl
@[simp] theorem State.powerOn_pending : s.powerOn.pending = none := rfl
@[simp] theorem State.powerOn_mem : s.powerOn.mem = s.mem.redrawAll := rfl
@[simp] theorem State.powerOn_poly : s.powerOn.poly = s.poly := rfl
@[simp] theorem State.powerOn_rng : s.powerOn.rng = s.rng := rfl
@[simp] theorem State.powerOn_draws : s.powerOn.draws = s.draws := rfl
@[simp] theorem State.powerOn_busyReads : s.powerOn.busyReads = s.busyReads := rfl
@[simp] theorem State.powerOn_inputs : s.powerOn.inputs = s.inputs := rfl
@[simp] theorem State.powerOn_reply : s.powerOn.reply = s.reply := rfl

/-! ### `State.writeCtrl` -/

@[simp] theorem State.writeCtrl_ie (v : Word) : (s.writeCtrl v).ie = v.getLsbD 0 := rfl
@[simp] theorem State.writeCtrl_done (v : Word) : (s.writeCtrl v).done = s.done := rfl
@[simp] theorem State.writeCtrl_ovr (v : Word) : (s.writeCtrl v).ovr = s.ovr := rfl
@[simp] theorem State.writeCtrl_cmd (v : Word) : (s.writeCtrl v).cmd = s.cmd := rfl
@[simp] theorem State.writeCtrl_result (v : Word) : (s.writeCtrl v).result = s.result := rfl
@[simp] theorem State.writeCtrl_err (v : Word) : (s.writeCtrl v).err = s.err := rfl
@[simp] theorem State.writeCtrl_cfgN (v : Word) : (s.writeCtrl v).cfgN = s.cfgN := rfl
@[simp] theorem State.writeCtrl_cfgK (v : Word) : (s.writeCtrl v).cfgK = s.cfgK := rfl
@[simp] theorem State.writeCtrl_cfgL (v : Word) : (s.writeCtrl v).cfgL = s.cfgL := rfl
@[simp] theorem State.writeCtrl_cfgP (v : Word) : (s.writeCtrl v).cfgP = s.cfgP := rfl
@[simp] theorem State.writeCtrl_sess (v : Word) : (s.writeCtrl v).sess = s.sess := rfl
@[simp] theorem State.writeCtrl_sessJ (v : Word) : (s.writeCtrl v).sessJ = s.sessJ := rfl
@[simp] theorem State.writeCtrl_sessL (v : Word) : (s.writeCtrl v).sessL = s.sessL := rfl
@[simp] theorem State.writeCtrl_sessNP (v : Word) : (s.writeCtrl v).sessNP = s.sessNP := rfl
@[simp] theorem State.writeCtrl_sessKL (v : Word) : (s.writeCtrl v).sessKL = s.sessKL := rfl
@[simp] theorem State.writeCtrl_pending (v : Word) : (s.writeCtrl v).pending = s.pending := rfl
@[simp] theorem State.writeCtrl_mem (v : Word) : (s.writeCtrl v).mem = s.mem := rfl
@[simp] theorem State.writeCtrl_poly (v : Word) : (s.writeCtrl v).poly = s.poly := rfl
@[simp] theorem State.writeCtrl_rng (v : Word) : (s.writeCtrl v).rng = s.rng := rfl
@[simp] theorem State.writeCtrl_draws (v : Word) : (s.writeCtrl v).draws = s.draws := rfl
@[simp] theorem State.writeCtrl_busyReads (v : Word) : (s.writeCtrl v).busyReads = s.busyReads := rfl
@[simp] theorem State.writeCtrl_inputs (v : Word) : (s.writeCtrl v).inputs = s.inputs := rfl
@[simp] theorem State.writeCtrl_reply (v : Word) : (s.writeCtrl v).reply = s.reply := rfl

/-! ### `State.writeStatus` -/

@[simp] theorem State.writeStatus_ie (v : Word) : (s.writeStatus v).ie = s.ie := rfl
@[simp] theorem State.writeStatus_done (v : Word) : (s.writeStatus v).done = (s.done && !v.getLsbD 1) := rfl
@[simp] theorem State.writeStatus_ovr (v : Word) : (s.writeStatus v).ovr = (s.ovr && !v.getLsbD 2) := rfl
@[simp] theorem State.writeStatus_cmd (v : Word) : (s.writeStatus v).cmd = s.cmd := rfl
@[simp] theorem State.writeStatus_result (v : Word) : (s.writeStatus v).result = s.result := rfl
@[simp] theorem State.writeStatus_err (v : Word) : (s.writeStatus v).err = s.err := rfl
@[simp] theorem State.writeStatus_cfgN (v : Word) : (s.writeStatus v).cfgN = s.cfgN := rfl
@[simp] theorem State.writeStatus_cfgK (v : Word) : (s.writeStatus v).cfgK = s.cfgK := rfl
@[simp] theorem State.writeStatus_cfgL (v : Word) : (s.writeStatus v).cfgL = s.cfgL := rfl
@[simp] theorem State.writeStatus_cfgP (v : Word) : (s.writeStatus v).cfgP = s.cfgP := rfl
@[simp] theorem State.writeStatus_sess (v : Word) : (s.writeStatus v).sess = s.sess := rfl
@[simp] theorem State.writeStatus_sessJ (v : Word) : (s.writeStatus v).sessJ = s.sessJ := rfl
@[simp] theorem State.writeStatus_sessL (v : Word) : (s.writeStatus v).sessL = s.sessL := rfl
@[simp] theorem State.writeStatus_sessNP (v : Word) : (s.writeStatus v).sessNP = s.sessNP := rfl
@[simp] theorem State.writeStatus_sessKL (v : Word) : (s.writeStatus v).sessKL = s.sessKL := rfl
@[simp] theorem State.writeStatus_pending (v : Word) : (s.writeStatus v).pending = s.pending := rfl
@[simp] theorem State.writeStatus_mem (v : Word) : (s.writeStatus v).mem = s.mem := rfl
@[simp] theorem State.writeStatus_poly (v : Word) : (s.writeStatus v).poly = s.poly := rfl
@[simp] theorem State.writeStatus_rng (v : Word) : (s.writeStatus v).rng = s.rng := rfl
@[simp] theorem State.writeStatus_draws (v : Word) : (s.writeStatus v).draws = s.draws := rfl
@[simp] theorem State.writeStatus_busyReads (v : Word) : (s.writeStatus v).busyReads = s.busyReads := rfl
@[simp] theorem State.writeStatus_inputs (v : Word) : (s.writeStatus v).inputs = s.inputs := rfl
@[simp] theorem State.writeStatus_reply (v : Word) : (s.writeStatus v).reply = s.reply := rfl

/-! ### `State.setOvr` -/

@[simp] theorem State.setOvr_ie : s.setOvr.ie = s.ie := rfl
@[simp] theorem State.setOvr_done : s.setOvr.done = s.done := rfl
@[simp] theorem State.setOvr_ovr : s.setOvr.ovr = true := rfl
@[simp] theorem State.setOvr_cmd : s.setOvr.cmd = s.cmd := rfl
@[simp] theorem State.setOvr_result : s.setOvr.result = s.result := rfl
@[simp] theorem State.setOvr_err : s.setOvr.err = s.err := rfl
@[simp] theorem State.setOvr_cfgN : s.setOvr.cfgN = s.cfgN := rfl
@[simp] theorem State.setOvr_cfgK : s.setOvr.cfgK = s.cfgK := rfl
@[simp] theorem State.setOvr_cfgL : s.setOvr.cfgL = s.cfgL := rfl
@[simp] theorem State.setOvr_cfgP : s.setOvr.cfgP = s.cfgP := rfl
@[simp] theorem State.setOvr_sess : s.setOvr.sess = s.sess := rfl
@[simp] theorem State.setOvr_sessJ : s.setOvr.sessJ = s.sessJ := rfl
@[simp] theorem State.setOvr_sessL : s.setOvr.sessL = s.sessL := rfl
@[simp] theorem State.setOvr_sessNP : s.setOvr.sessNP = s.sessNP := rfl
@[simp] theorem State.setOvr_sessKL : s.setOvr.sessKL = s.sessKL := rfl
@[simp] theorem State.setOvr_pending : s.setOvr.pending = s.pending := rfl
@[simp] theorem State.setOvr_mem : s.setOvr.mem = s.mem := rfl
@[simp] theorem State.setOvr_poly : s.setOvr.poly = s.poly := rfl
@[simp] theorem State.setOvr_rng : s.setOvr.rng = s.rng := rfl
@[simp] theorem State.setOvr_draws : s.setOvr.draws = s.draws := rfl
@[simp] theorem State.setOvr_busyReads : s.setOvr.busyReads = s.busyReads := rfl
@[simp] theorem State.setOvr_inputs : s.setOvr.inputs = s.inputs := rfl
@[simp] theorem State.setOvr_reply : s.setOvr.reply = s.reply := rfl

/-! ### `State.answerWith` -/

@[simp] theorem State.answerWith_ie (r : BusReply) : (s.answerWith r).ie = s.ie := rfl
@[simp] theorem State.answerWith_done (r : BusReply) : (s.answerWith r).done = s.done := rfl
@[simp] theorem State.answerWith_ovr (r : BusReply) : (s.answerWith r).ovr = s.ovr := rfl
@[simp] theorem State.answerWith_cmd (r : BusReply) : (s.answerWith r).cmd = s.cmd := rfl
@[simp] theorem State.answerWith_result (r : BusReply) : (s.answerWith r).result = s.result := rfl
@[simp] theorem State.answerWith_err (r : BusReply) : (s.answerWith r).err = s.err := rfl
@[simp] theorem State.answerWith_cfgN (r : BusReply) : (s.answerWith r).cfgN = s.cfgN := rfl
@[simp] theorem State.answerWith_cfgK (r : BusReply) : (s.answerWith r).cfgK = s.cfgK := rfl
@[simp] theorem State.answerWith_cfgL (r : BusReply) : (s.answerWith r).cfgL = s.cfgL := rfl
@[simp] theorem State.answerWith_cfgP (r : BusReply) : (s.answerWith r).cfgP = s.cfgP := rfl
@[simp] theorem State.answerWith_sess (r : BusReply) : (s.answerWith r).sess = s.sess := rfl
@[simp] theorem State.answerWith_sessJ (r : BusReply) : (s.answerWith r).sessJ = s.sessJ := rfl
@[simp] theorem State.answerWith_sessL (r : BusReply) : (s.answerWith r).sessL = s.sessL := rfl
@[simp] theorem State.answerWith_sessNP (r : BusReply) : (s.answerWith r).sessNP = s.sessNP := rfl
@[simp] theorem State.answerWith_sessKL (r : BusReply) : (s.answerWith r).sessKL = s.sessKL := rfl
@[simp] theorem State.answerWith_pending (r : BusReply) : (s.answerWith r).pending = s.pending := rfl
@[simp] theorem State.answerWith_mem (r : BusReply) : (s.answerWith r).mem = s.mem := rfl
@[simp] theorem State.answerWith_poly (r : BusReply) : (s.answerWith r).poly = s.poly := rfl
@[simp] theorem State.answerWith_rng (r : BusReply) : (s.answerWith r).rng = s.rng := rfl
@[simp] theorem State.answerWith_draws (r : BusReply) : (s.answerWith r).draws = s.draws := rfl
@[simp] theorem State.answerWith_busyReads (r : BusReply) : (s.answerWith r).busyReads = s.busyReads := rfl
@[simp] theorem State.answerWith_inputs (r : BusReply) : (s.answerWith r).inputs = s.inputs := rfl
@[simp] theorem State.answerWith_reply (r : BusReply) : (s.answerWith r).reply = some r := rfl

/-! ### `State.takeTurn` -/

@[simp] theorem State.takeTurn_ie : s.takeTurn.ie = s.ie := rfl
@[simp] theorem State.takeTurn_done : s.takeTurn.done = s.done := rfl
@[simp] theorem State.takeTurn_ovr : s.takeTurn.ovr = s.ovr := rfl
@[simp] theorem State.takeTurn_cmd : s.takeTurn.cmd = s.cmd := rfl
@[simp] theorem State.takeTurn_result : s.takeTurn.result = s.result := rfl
@[simp] theorem State.takeTurn_err : s.takeTurn.err = s.err := rfl
@[simp] theorem State.takeTurn_cfgN : s.takeTurn.cfgN = s.cfgN := rfl
@[simp] theorem State.takeTurn_cfgK : s.takeTurn.cfgK = s.cfgK := rfl
@[simp] theorem State.takeTurn_cfgL : s.takeTurn.cfgL = s.cfgL := rfl
@[simp] theorem State.takeTurn_cfgP : s.takeTurn.cfgP = s.cfgP := rfl
@[simp] theorem State.takeTurn_sess : s.takeTurn.sess = s.sess := rfl
@[simp] theorem State.takeTurn_sessJ : s.takeTurn.sessJ = s.sessJ := rfl
@[simp] theorem State.takeTurn_sessL : s.takeTurn.sessL = s.sessL := rfl
@[simp] theorem State.takeTurn_sessNP : s.takeTurn.sessNP = s.sessNP := rfl
@[simp] theorem State.takeTurn_sessKL : s.takeTurn.sessKL = s.sessKL := rfl
@[simp] theorem State.takeTurn_pending : s.takeTurn.pending = s.pending := rfl
@[simp] theorem State.takeTurn_mem : s.takeTurn.mem = s.mem := rfl
@[simp] theorem State.takeTurn_poly : s.takeTurn.poly = s.poly := rfl
@[simp] theorem State.takeTurn_rng : s.takeTurn.rng = s.rng := rfl
@[simp] theorem State.takeTurn_draws : s.takeTurn.draws = s.draws := rfl
@[simp] theorem State.takeTurn_busyReads : s.takeTurn.busyReads = s.busyReads := rfl
@[simp] theorem State.takeTurn_inputs : s.takeTurn.inputs = s.inputs.tail := rfl
@[simp] theorem State.takeTurn_reply : s.takeTurn.reply = none := rfl

/-! ### `State.reset` -/

@[simp] theorem State.reset_ie : State.reset.ie = false := rfl
@[simp] theorem State.reset_done : State.reset.done = false := rfl
@[simp] theorem State.reset_ovr : State.reset.ovr = false := rfl
@[simp] theorem State.reset_cmd : State.reset.cmd = 0 := rfl
@[simp] theorem State.reset_result : State.reset.result = 0 := rfl
@[simp] theorem State.reset_err : State.reset.err = ⟨0, 0, 0⟩ := rfl
@[simp] theorem State.reset_cfgN : State.reset.cfgN = 0 := rfl
@[simp] theorem State.reset_cfgK : State.reset.cfgK = 0 := rfl
@[simp] theorem State.reset_cfgL : State.reset.cfgL = 0 := rfl
@[simp] theorem State.reset_cfgP : State.reset.cfgP = 0 := rfl
@[simp] theorem State.reset_sess : State.reset.sess = .idle := rfl
@[simp] theorem State.reset_sessJ : State.reset.sessJ = 0 := rfl
@[simp] theorem State.reset_sessL : State.reset.sessL = 0 := rfl
@[simp] theorem State.reset_sessNP : State.reset.sessNP = 0 := rfl
@[simp] theorem State.reset_sessKL : State.reset.sessKL = 0 := rfl
@[simp] theorem State.reset_pending : State.reset.pending = none := rfl
@[simp] theorem State.reset_mem : State.reset.mem = ⟨[], 0, 0⟩ := rfl
@[simp] theorem State.reset_poly : State.reset.poly = Config.polyDefault := rfl
@[simp] theorem State.reset_rng : State.reset.rng = [] := rfl
@[simp] theorem State.reset_draws : State.reset.draws = 0 := rfl
@[simp] theorem State.reset_busyReads : State.reset.busyReads = 0 := rfl
@[simp] theorem State.reset_inputs : State.reset.inputs = [] := rfl
@[simp] theorem State.reset_reply : State.reset.reply = none := rfl

end Sys2Proof.Machine
end

