-- ==== Sys2Proof/Laws/Bus.lean ====
section
/-! SUPPORT. The step as the next event served, the regions as ranges of offsets (20_memory.md R64), and what a
host access can do to the state (R79 to R81), each said once. -/

namespace Sys2Proof.Machine

/-- The step serves the event at the head of the inputs. -/
theorem step_of_head {s : State} {e : Event} (h : s.inputs.head? = some e) : step s = serve e s.takeTurn := by
  simp [step, State.nextEvent, h]

/-- With nothing at the inputs the step is the completion step. -/
theorem step_of_empty {s : State} (h : s.inputs = []) : step s = completion s.takeTurn := by
  simp [step, State.nextEvent, h, serve]

/-! ### The address map -/

/-- `Region(off)` by the ranges of R64. -/
theorem regionAt_spec (off : Nat) :
    (off < 0x100 ∧ regionAt off = .register (regAt off)) ∨
    (0x100 ≤ off ∧ off < 0x200 ∧ regionAt off = .rowlen) ∨
    (0x200 ≤ off ∧ off < 0x300 ∧ regionAt off = .const) ∨
    (0x300 ≤ off ∧ off < 0x400 ∧ regionAt off = .invtab) ∨
    (0x400 ≤ off ∧ off < 0x800 ∧ regionAt off = .unmapped) ∨
    (0x800 ≤ off ∧ off < 0xC00 ∧ regionAt off = .olen) ∨
    (0xC00 ≤ off ∧ off < 0x10000 ∧ regionAt off = .unmapped) ∨
    (0x10000 ≤ off ∧ off < 0x20000 ∧ regionAt off = .mat) ∨
    (0x20000 ≤ off ∧ regionAt off = .notDecoded) := by
  simp only [regionAt]
  split_ifs <;> simp <;> omega

/-- An access that passes the checks is aligned, mapped, and of word width where the region asks for it. -/
theorem accessFails_eq_false {off : Nat} {n : Width} (h : accessFails off n = false) :
    off % n.bytes = 0 ∧ regionAt off ≠ .unmapped ∧ ((regionAt off).wordOnly = true → n = .word) := by
  simp only [accessFails, Bool.or_eq_false_iff, Bool.and_eq_false_iff, bne_eq_false_iff_eq,
    beq_eq_false_iff_ne] at h
  refine ⟨h.1.1, h.1.2, fun hw => ?_⟩
  rcases h.2 with h | h
  · simp [hw] at h
  · exact h

/-- Every byte of an aligned access to a buffer's region is a buffer's byte. -/
theorem access_in_buffer {off : Nat} {n : Width} {k : Nat} (ha : off % n.bytes = 0) (hk : k < n.bytes)
    (hr : regionAt off = .rowlen ∨ regionAt off = .const ∨ regionAt off = .mat ∨ regionAt off = .olen) :
    isBufAddr (off + k) = true := by
  rw [isBufAddr_iff]
  have := regionAt_spec off
  cases n <;> simp only [Width.bytes] at ha hk <;>
    rcases this with h | h | h | h | h | h | h | h | h <;> simp_all <;> omega

/-! ### Host accesses -/

/-- A read changes at most the answer and the model's count of free values (R72). -/
theorem hostRead_shape (off : Nat) (n : Width) (s : State) :
    hostRead off n s = { s with
      busyReads := (hostRead off n s).busyReads, reply := (hostRead off n s).reply } := by
  simp only [hostRead, readByteBuf]
  split_ifs
  · rfl
  · rfl
  · split <;> rfl
  · split <;> rfl

/-- The effects a host write can have, before its answer is put. -/
inductive WriteEffect (off : Nat) (n : Width) (v : Word) (s : State) : State → Prop where
  /-- ignored, or in error -/
  | none : WriteEffect off n v s s
  /-- dropped because BUSY = 1 (R80) -/
  | dropped : s.busy = true → WriteEffect off n v s s.setOvr
  | ctrl : WriteEffect off n v s (s.writeCtrl v)
  | status : WriteEffect off n v s (s.writeStatus v)
  | issue : s.busy = false → WriteEffect off n v s (s.issue v)
  | cfgN : s.busy = false → WriteEffect off n v s { s with cfgN := v.setWidth 16 }
  | cfgK : s.busy = false → WriteEffect off n v s { s with cfgK := v.setWidth 16 }
  | cfgL : s.busy = false → WriteEffect off n v s { s with cfgL := v }
  | cfgP : s.busy = false → WriteEffect off n v s { s with cfgP := v.setWidth 16 }
  /-- bytes stored, all of them a buffer's -/
  | stored : s.busy = false → (∀ k, k < n.bytes → isBufAddr (off + k) = true) →
      WriteEffect off n v s (s.setMem (writeBytes off n v s.mem))

theorem unlessBusy_cases (f : State → State) (s : State) :
    (s.busy = true ∧ unlessBusy f s = s.setOvr) ∨ (s.busy = false ∧ unlessBusy f s = f s) := by
  cases h : s.busy <;> simp [unlessBusy, h]

theorem regWrite_effect (r : Reg) (off : Nat) (n : Width) (v : Word) (s : State) :
    WriteEffect off n v s (regWrite r v s) := by
  cases r <;> simp only [regWrite] <;> first
    | exact .none
    | exact .ctrl
    | exact .status
    | skip
  · rcases unlessBusy_cases (State.issue v) s with ⟨h, e⟩ | ⟨h, e⟩ <;> rw [e]
    exacts [.dropped h, .issue h]
  · rcases unlessBusy_cases (fun t => { t with cfgN := v.setWidth 16 }) s with ⟨h, e⟩ | ⟨h, e⟩ <;> rw [e]
    exacts [.dropped h, .cfgN h]
  · rcases unlessBusy_cases (fun t => { t with cfgK := v.setWidth 16 }) s with ⟨h, e⟩ | ⟨h, e⟩ <;> rw [e]
    exacts [.dropped h, .cfgK h]
  · rcases unlessBusy_cases (fun t => { t with cfgL := v }) s with ⟨h, e⟩ | ⟨h, e⟩ <;> rw [e]
    exacts [.dropped h, .cfgL h]
  · rcases unlessBusy_cases (fun t => { t with cfgP := v.setWidth 16 }) s with ⟨h, e⟩ | ⟨h, e⟩ <;> rw [e]
    exacts [.dropped h, .cfgP h]

theorem bufWrite_effect {off : Nat} {n : Width} (v : Word) (s : State)
    (hb : ∀ k, k < n.bytes → isBufAddr (off + k) = true) : WriteEffect off n v s (bufWrite off n v s) := by
  rcases unlessBusy_cases (fun t => t.setMem (writeBytes off n v t.mem)) s with ⟨h, e⟩ | ⟨h, e⟩ <;>
    rw [bufWrite, e]
  exacts [.dropped h, .stored h hb]

/-- Everything a host write can do: one effect, then at most the answer. -/
theorem hostWrite_effect (off : Nat) (n : Width) (v : Word) (s : State) :
    ∃ t r, WriteEffect off n v s t ∧ hostWrite off n v s = { t with reply := r } := by
  simp only [hostWrite]
  split_ifs with h1 h2
  · exact ⟨s, s.reply, .none, rfl⟩
  · exact ⟨s, some .busError, .none, rfl⟩
  · obtain ⟨ha, -, -⟩ := accessFails_eq_false (Bool.eq_false_iff.mpr h2)
    split
    case h_1 r _ => exact ⟨_, some .done, regWrite_effect r off n v s, rfl⟩
    case h_2 => exact ⟨s, some .done, .none, rfl⟩
    case h_3 h => exact ⟨_, some .done, bufWrite_effect v s fun k hk => access_in_buffer ha hk (.inl h), rfl⟩
    case h_4 h => exact ⟨_, some .done, bufWrite_effect v s fun k hk => access_in_buffer ha hk (.inr (.inl h)), rfl⟩
    case h_5 h =>
      exact ⟨_, some .done, bufWrite_effect v s fun k hk => access_in_buffer ha hk (.inr (.inr (.inr h))), rfl⟩
    case h_6 h =>
      exact ⟨_, some .done, bufWrite_effect v s fun k hk => access_in_buffer ha hk (.inr (.inr (.inl h))), rfl⟩
    case h_7 => exact ⟨s, s.reply, .none, rfl⟩
    case h_8 => exact ⟨s, s.reply, .none, rfl⟩

/-- A write of bytes that are all a buffer's keeps the canonical form. -/
theorem writeBytes_wf {off : Nat} {n : Width} {v : Word} {m : Memory} (h : m.wf)
    (hb : ∀ k, k < n.bytes → isBufAddr (off + k) = true) : (writeBytes off n v m).wf :=
  forUp_wf h fun k _ hk hx => Memory.write_wf hx (hb k hk) _

end Sys2Proof.Machine
end

