-- ==== Sys2Proof/Laws/Codec.lean ====
section
/-! SUPPORT. What the loops of SPLIT_BYTE can do (43_codec.md R173, R176, R177): one lemma for the draws of one
party and one for all parties, each saying either that every draw answered a byte and what was written, or which
draw was the first to fail. -/

namespace Sys2Proof.Machine

/-! ### Answers of the random source -/

@[simp] theorem State.answer_drawn (s : State) (j : Nat) : s.drawn.answer j = s.answer (j + 1) := by
  simp only [State.answer, State.drawn_rng, State.drawn_draws, List.getElem?_tail]
  rw [Nat.add_assoc, Nat.add_comm 1 j]

@[simp] theorem State.answer_setMem (s : State) (m : Memory) (j : Nat) : (s.setMem m).answer j = s.answer j := rfl

/-- The state after `n` requests. -/
theorem State.answer_dropped (s : State) (n j : Nat) (m : Memory) :
    State.answer { s with mem := m, rng := s.rng.drop n, draws := s.draws + n } j = s.answer (n + j) := by
  simp only [State.answer, List.getElem?_drop, Nat.add_assoc]

/-! ### One party -/

/-- The draws of coefficients `i`, ..., `i + n - 1` of party `p`: all answer bytes, which are then the row's
elements, or the `j`-th is the first to fail. Nothing but the buffers and the source's position changes, and no
byte outside those elements. -/
theorem drawCoeffs_spec (p : Nat) (n : Nat) : ∀ (i : Nat) (s : State), i + n ≤ 256 →
    (∃ t, drawCoeffs p i n s = .rows t ∧
      t = { s with mem := t.mem, rng := s.rng.drop n, draws := s.draws + n } ∧
      (∀ j, j < n → s.answer j = .byte (t.mem.mat p (i + j))) ∧
      ∀ a, (∀ j, j < n → a ≠ matAddr p (i + j)) → t.mem.read a = s.mem.read a) ∨
    (∃ j t, j < n ∧ drawCoeffs p i n s = .failed p (i + j) t ∧
      t = { s with mem := t.mem, rng := s.rng.drop (j + 1), draws := s.draws + (j + 1) } ∧
      s.answer j = .fail ∧ (∀ j', j' < j → ∃ b, s.answer j' = .byte b) ∧
      ∀ a, (∀ j', j' < n → a ≠ matAddr p (i + j')) → t.mem.read a = s.mem.read a) := by
  induction n with
  | zero =>
    intro i s _
    exact .inl ⟨s, rfl, by simp, fun j hj => absurd hj (Nat.not_lt_zero j), fun _ _ => rfl⟩
  | succ n ih =>
    intro i s hi
    cases h : s.answer 0 with
    | fail =>
      refine .inr ⟨0, s.drawn, Nat.succ_pos n, by simp [drawCoeffs, h], ?_, h,
        fun j hj => absurd hj (Nat.not_lt_zero j), fun _ _ => rfl⟩
      simp [State.drawn, List.drop_one]
    | byte v =>
      have hstep : drawCoeffs p i (n + 1) s = drawCoeffs p (i + 1) n (s.drawn.setMem (s.mem.setMat p i v)) := by
        simp [drawCoeffs, h]
      have hans : ∀ j, (s.drawn.setMem (s.mem.setMat p i v)).answer j = s.answer (j + 1) := fun j => by simp
      have hread : ∀ a, (∀ j, j < n + 1 → a ≠ matAddr p (i + j)) →
          (s.mem.setMat p i v).read a = s.mem.read a := fun a ha =>
        Memory.read_write_other _ _ (by simpa using ha 0 (Nat.succ_pos n))
      have hout : ∀ a, (∀ j, j < n + 1 → a ≠ matAddr p (i + j)) → ∀ j, j < n → a ≠ matAddr p (i + 1 + j) :=
        fun a ha j hj => by
          have := ha (j + 1) (by omega)
          rwa [show i + (j + 1) = i + 1 + j by omega] at this
      rcases ih (i + 1) (s.drawn.setMem (s.mem.setMat p i v)) (by omega) with
        ⟨t, ht, heq, hw, hr⟩ | ⟨j, t, hj, ht, heq, hf, hb, hr⟩
      · refine .inl ⟨t, hstep.trans ht, ?_, ?_, fun a ha => (hr a (hout a ha)).trans (hread a ha)⟩
        · rw [heq]; simp [State.setMem, State.drawn, Nat.add_assoc, Nat.add_comm 1 n]
        · intro j hj
          cases j with
          | zero =>
            have h1 : t.mem.mat p (i + 0) = (s.mem.setMat p i v).mat p i := hr _ fun j hj heq' => by
              have := (matAddr_inj (by omega) (by omega)).mp heq'
              omega
            rw [h, h1, Memory.mat_setMat _ _ (by omega) (by omega), if_pos ⟨rfl, rfl⟩]
          | succ j =>
            rw [← hans j, hw j (by omega), show i + 1 + j = i + (j + 1) by omega]
      · refine .inr ⟨j + 1, t, by omega, ?_, ?_, ?_, ?_, fun a ha => (hr a (hout a ha)).trans (hread a ha)⟩
        · rw [hstep, ht, show i + 1 + j = i + (j + 1) by omega]
        · rw [heq]; simp [State.setMem, State.drawn, Nat.add_assoc, Nat.add_comm 1]
        · rw [← hans]; exact hf
        · intro j' hj'
          cases j' with
          | zero => exact ⟨v, h⟩
          | succ j' => rw [← hans]; exact hb j' (by omega)

/-! ### One row's end -/

theorem closeRow_mat {p k r c : Nat} (poly : Poly) (v : Byte) (m : Memory) (hp : p < 256) (hk : k ≤ 256)
    (hc : c < 256) :
    (closeRow poly k v p m).mat r c =
      if r = p ∧ c = k - 1 then gfMul poly (m.mat p 0) v else m.mat r c := by
  rw [closeRow, Memory.mat_setRowlen _ _ hp, Memory.mat_setMat _ _ (by omega) hc]

theorem closeRow_rowlen {p k r : Nat} (poly : Poly) (v : Byte) (m : Memory) (hr : r < 256) :
    (closeRow poly k v p m).rowlen r = if r = p then BitVec.ofNat 8 k else m.rowlen r := by
  rw [closeRow, Memory.rowlen_setRowlen, Memory.rowlen_setMat _ _ hr]

theorem closeRow_read {p k a : Nat} (poly : Poly) (v : Byte) (m : Memory) (hm : a ≠ matAddr p (k - 1))
    (hl : a ≠ rowlenAddr p) : (closeRow poly k v p m).read a = m.read a := by
  rw [closeRow, Memory.setRowlen, Memory.setMat, Memory.read_write_other _ _ hl, Memory.read_write_other _ _ hm]

/-! ### The state's shape -/

/-- Whatever the draws answer, the loops of SPLIT_BYTE change only the buffers and the source's position. -/
theorem splitRows_shape (k : Nat) (v : Byte) (hk : k ≤ 256) (n : Nat) : ∀ (p : Nat) (s : State),
    (∃ t, splitRows k v p n s = .rows t ∧
      t = { s with mem := t.mem, rng := t.rng, draws := t.draws }) ∨
    (∃ q i t, splitRows k v p n s = .failed q i t ∧
      t = { s with mem := t.mem, rng := t.rng, draws := t.draws }) := by
  induction n with
  | zero => exact fun p s => .inl ⟨s, rfl, rfl⟩
  | succ n ih =>
    intro p s
    rcases drawCoeffs_spec p (k - 1) 0 s (by omega) with ⟨t, ht, heq, -, -⟩ | ⟨j, t, -, ht, heq, -, -, -⟩
    · have hstep : splitRows k v p (n + 1) s =
          splitRows k v (p + 1) n (t.setMem (closeRow t.poly k v p t.mem)) := by simp [splitRows, ht]
      rcases ih (p + 1) (t.setMem (closeRow t.poly k v p t.mem)) with ⟨u, hu, hu'⟩ | ⟨q, i, u, hu, hu'⟩
      · exact .inl ⟨u, hstep.trans hu, by rw [hu', heq]; rfl⟩
      · exact .inr ⟨q, i, u, hstep.trans hu, by rw [hu', heq]; rfl⟩
    · exact .inr ⟨p, 0 + j, t, by simp [splitRows, ht], by rw [heq]⟩

end Sys2Proof.Machine
end

