-- ==== Sys2Proof/Laws/Decode.lean ====
section
/-! SUPPORT. The fields of an encoded word, and that every command is well-formed. -/

namespace Sys2Proof.Laws

/-- Every term of `Instr` has its reserved fields 0. -/
theorem instr_wellFormed (i : Instr) : i.wellFormed = true := by
  cases i <;> rfl

theorem opField_append (op a b c : Byte) : opField (op ++ a ++ b ++ c) = op := by
  ext i hi
  simp only [opField, BitVec.getElem_extractLsb', BitVec.getLsbD_append]
  interval_cases i <;> simp

theorem operandFields_append (op a b c : Byte) : operandFields (op ++ a ++ b ++ c) = ⟨a, b, c⟩ := by
  simp only [operandFields, Operands.mk.injEq]
  refine ⟨?_, ?_, ?_⟩ <;>
  · ext i hi
    simp only [BitVec.getElem_extractLsb', BitVec.getLsbD_append]
    interval_cases i <;> simp

/-- The OP field of an encoded command. -/
@[simp] theorem opField_encode (i : Instr) : opField (encode i) = i.opcode := opField_append _ _ _ _

/-- The operand fields of an encoded command. -/
@[simp] theorem operandFields_encode (i : Instr) : operandFields (encode i) = i.operands :=
  operandFields_append _ _ _ _

end Sys2Proof.Laws
end

