-- ==== Sys2Proof/Laws/PerInstr.lean ====
section
/-! SUPPORT. One statement per command about its syntax: its encoded word has the bits its row of the opcode map
fixes (30_encoding.md R93, "Match and mask, from the format"), and its reserved fields are 0. -/

namespace Sys2Proof.Laws.Encode

/-- The command is well-formed, and its word under its format's mask is its opcode in bits [31:24] with 0 below. -/
def Statement (i : Instr) : Prop :=
  i.wellFormed = true ∧ encode i &&& i.format.mask = i.opcode.setWidth 32 <<< 24

/-- The word of four fields under a mask that keeps whole fields, bit by bit. -/
theorem mask_bits (op a b c : Byte) (mask : Word) (n : Nat) :
    ((op ++ a ++ b ++ c : Word) &&& mask).getLsbD n =
      ((if n < 8 then c.getLsbD n else if n < 16 then b.getLsbD (n - 8)
        else if n < 24 then a.getLsbD (n - 16) else op.getLsbD (n - 24)) && mask.getLsbD n) := by
  simp only [BitVec.getLsbD_and, BitVec.getLsbD_append, Nat.sub_sub]
  congr 1
  split_ifs <;> first | rfl | omega

theorem op_bits (op : Byte) (n : Nat) :
    ((op.setWidth 32 <<< 24 : Word)).getLsbD n = (decide (n < 32) && !decide (n < 24) && op.getLsbD (n - 24)) := by
  simp only [BitVec.getLsbD_shiftLeft, BitVec.getLsbD_setWidth]
  by_cases h : n < 32
  · have : n - 24 < 32 := by omega
    simp [h, this]
  · simp [h]

theorem f0_mask (op : Byte) : (op ++ (0 : Byte) ++ (0 : Byte) ++ (0 : Byte) : Word) &&& Format.f0.mask = op.setWidth 32 <<< 24 := by
  refine BitVec.eq_of_getLsbD_eq fun n hn => ?_
  rw [mask_bits, op_bits]
  interval_cases n <;> simp [Format.mask]

theorem f1_mask (op a : Byte) : (op ++ a ++ (0 : Byte) ++ (0 : Byte) : Word) &&& Format.f1.mask = op.setWidth 32 <<< 24 := by
  refine BitVec.eq_of_getLsbD_eq fun n hn => ?_
  rw [mask_bits, op_bits]
  interval_cases n <;> simp [Format.mask]

theorem f2_mask (op a b : Byte) : (op ++ a ++ b ++ (0 : Byte) : Word) &&& Format.f2.mask = op.setWidth 32 <<< 24 := by
  refine BitVec.eq_of_getLsbD_eq fun n hn => ?_
  rw [mask_bits, op_bits]
  interval_cases n <;> simp [Format.mask]

theorem f3_mask (op a b c : Byte) : (op ++ a ++ b ++ c : Word) &&& Format.f3.mask = op.setWidth 32 <<< 24 := by
  refine BitVec.eq_of_getLsbD_eq fun n hn => ?_
  rw [mask_bits, op_bits]
  interval_cases n <;> simp [Format.mask]

theorem nop : Statement .nop := ⟨rfl, f0_mask _⟩
theorem gmul (a b : Byte) : Statement (.gmul a b) := ⟨rfl, f2_mask _ _ _⟩
theorem gdiv (a b : Byte) : Statement (.gdiv a b) := ⟨rfl, f2_mask _ _ _⟩
theorem ginv (x : Byte) : Statement (.ginv x) := ⟨rfl, f1_mask _ _⟩
theorem eval (ra rb n : Byte) : Statement (.eval ra rb n) := ⟨rfl, f3_mask _ _ _ _⟩
theorem heval (ra rb n : Byte) : Statement (.heval ra rb n) := ⟨rfl, f3_mask _ _ _ _⟩
theorem solve (d r c : Byte) : Statement (.solve d r c) := ⟨rfl, f3_mask _ _ _ _⟩
theorem splitInit : Statement .splitInit := ⟨rfl, f0_mask _⟩
theorem splitByte (s : Byte) : Statement (.splitByte s) := ⟨rfl, f1_mask _ _⟩
theorem combineInit : Statement .combineInit := ⟨rfl, f0_mask _⟩
theorem combineByte : Statement .combineByte := ⟨rfl, f0_mask _⟩
theorem abort : Statement .abort := ⟨rfl, f0_mask _⟩

end Sys2Proof.Laws.Encode
end

