-- ==== Sys2Proof/Laws/Solver.lean ====
section
/-! SUPPORT. What each step of the elimination procedure leaves at every element of MAT and CONST
(42_solver.md R144 to R146): one lemma per step, which later proofs cite instead of unfolding the step. -/

namespace Sys2Proof.Machine

/-! ### Selecting the pivot -/

/-- `lowest` finds an index below the bound that satisfies the test, and no lower one does. -/
theorem lowest_eq_some {n : Nat} {f : Nat → Bool} {i : Nat} (h : lowest n f = some i) :
    i < n ∧ f i = true ∧ ∀ j, j < i → f j = false := by
  have ⟨hf, hi, hj⟩ := List.find?_range_eq_some.mp h
  exact ⟨List.mem_range.mp hi, hf, fun j hj' => by simpa using hj j hj'⟩

/-- `lowest` finds nothing exactly when no index below the bound satisfies the test. -/
theorem lowest_eq_none {n : Nat} {f : Nat → Bool} : lowest n f = none ↔ ∀ j, j < n → f j = false := by
  simp [lowest]

/-! ### The exchange of two rows -/

theorem swapRows_mat {d piv col r c : Nat} (m : Memory) (hd : d ≤ 256) (hp : piv < d) (hcol : col < d)
    (hc : c < 256) :
    (swapRows d piv col m).mat r c =
      if c < d then (if r = piv then m.mat col c else if r = col then m.mat piv c else m.mat r c)
      else m.mat r c := by
  by_cases hpc : piv = col
  · subst hpc
    simp only [swapRows, if_true]
    split_ifs with h1 h2
    · rw [h2]
    · rfl
    · rfl
  have loop : ∀ r c, c < 256 → (forUp d (swapMat piv col) m).mat r c =
      if c < d then (if r = piv then m.mat col c else if r = col then m.mat piv c else m.mat r c)
      else m.mat r c := by
    refine forUp_invariant (P := fun (k : Nat) (x : Memory) => ∀ r c, c < 256 → x.mat r c =
      if c < k then (if r = piv then m.mat col c else if r = col then m.mat piv c else m.mat r c)
      else m.mat r c) (fun r c _ => by rw [if_neg (Nat.not_lt_zero c)]) ?_
    intro i x hi hx r c hc
    have hi' : i < 256 := hi.trans_le hd
    simp only [swapMat, Memory.mat_setMat _ _ hi' hc,
      hx _ _ hc, hx _ _ hi', lt_irrefl, if_false]
    by_cases hic : c = i
    · subst hic
      simp only [and_true, Nat.lt_succ_self, if_true, lt_irrefl, if_false]
      split_ifs with h1 h2
      · exact absurd (h2.symm.trans h1) hpc
      · rfl
      · rfl
      · rfl
    · have : (c < i + 1) = (c < i) := by rw [eq_iff_iff]; omega
      simp only [hic, and_false, if_false, this]
  simp only [swapRows, if_neg hpc, swapConst, Memory.mat_setConst _ _ (hp.trans_le hd),
    Memory.mat_setConst _ _ (hcol.trans_le hd), loop r c hc]

theorem forUp_swapMat_const {d piv col i : Nat} (m : Memory) (hi : i < 256) :
    (forUp d (swapMat piv col) m).const i = m.const i :=
  forUp_read_unchanged fun _ x _ =>
    (Memory.const_setMat (x.setMat piv _ _) _ hi).trans (Memory.const_setMat x _ hi)

theorem swapRows_const {d piv col i : Nat} (m : Memory) (hd : d ≤ 256) (hp : piv < d) (hcol : col < d)
    (hi : i < 256) :
    (swapRows d piv col m).const i =
      if i = piv then m.const col else if i = col then m.const piv else m.const i := by
  by_cases hpc : piv = col
  · subst hpc
    simp only [swapRows, if_true]
    split_ifs with h
    · rw [h]
    · rfl
  simp only [swapRows, if_neg hpc, swapConst, Memory.const_setConst, forUp_swapMat_const m hi,
    forUp_swapMat_const m (hp.trans_le hd), forUp_swapMat_const m (hcol.trans_le hd)]
  split_ifs with h1 h2
  · exact absurd (h2.symm.trans h1) hpc
  all_goals rfl

/-! ### A loop over one row -/

/-- A loop over the columns of row `r` that puts `F c` of the element and of the old memory at column `c`,
where `F` reads nothing of row `r` but that element. -/
theorem forUp_row {d r : Nat} (m : Memory) (F : Nat → Memory → Byte) (hd : d ≤ 256)
    (hF : ∀ c x, c < d → (∀ a, (∀ i, i < c → a ≠ matAddr r i) → x.read a = m.read a) → F c x = F c m) :
    (∀ r' c, c < 256 → (forUp d (fun c x => x.setMat r c (F c x)) m).mat r' c =
      if r' = r ∧ c < d then F c m else m.mat r' c) ∧
    ∀ a, (∀ c, c < d → a ≠ matAddr r c) →
      (forUp d (fun c x => x.setMat r c (F c x)) m).read a = m.read a := by
  have ⟨hw, hr⟩ := forUp_write (n := d) (addr := matAddr r) (V := F) (m := m)
    (fun i j hi hj h => ((matAddr_inj (hi.trans_le hd) (hj.trans_le hd)).mp h).2) hF
  refine ⟨fun r' c hc => ?_, hr⟩
  split_ifs with h
  · rw [h.1]; exact hw c h.2
  · refine hr _ fun i hi heq => h ?_
    have := (matAddr_inj hc (hi.trans_le hd)).mp heq
    exact ⟨this.1, this.2 ▸ hi⟩

/-! ### Normalization -/

theorem normalize_row {d col : Nat} (poly : Poly) (pv : Byte) (m : Memory) (hd : d ≤ 256) :
    (∀ r c, c < 256 →
      (forUp d (fun c x => x.setMat col c (gfDiv poly (x.mat col c) pv)) m).mat r c =
        if r = col ∧ c < d then gfDiv poly (m.mat col c) pv else m.mat r c) ∧
    ∀ a, (∀ c, c < d → a ≠ matAddr col c) →
      (forUp d (fun c x => x.setMat col c (gfDiv poly (x.mat col c) pv)) m).read a = m.read a := by
  refine forUp_row m (fun c x => gfDiv poly (x.mat col c) pv) hd fun c x hc hx => ?_
  have : x.mat col c = m.mat col c := hx _ fun i hi h =>
    absurd ((matAddr_inj (hc.trans_le hd) ((hi.trans hc).trans_le hd)).mp h).2 (Nat.ne_of_gt hi)
  simp only [this]

theorem normalize_mat {d col r c : Nat} (poly : Poly) (m : Memory) (hd : d ≤ 256) (hcol : col < d)
    (hc : c < 256) :
    (normalize poly d col m).mat r c =
      if r = col ∧ c < d then gfDiv poly (m.mat col c) (m.mat col col) else m.mat r c := by
  rw [normalize, Memory.mat_setConst _ _ (hcol.trans_le hd)]
  exact (normalize_row poly (m.mat col col) m hd).1 r c hc

theorem normalize_const {d col i : Nat} (poly : Poly) (m : Memory) (hd : d ≤ 256) (hcol : col < d)
    (hi : i < 256) :
    (normalize poly d col m).const i =
      if i = col then gfDiv poly (m.const col) (m.mat col col) else m.const i := by
  have h := (normalize_row (col := col) poly (m.mat col col) m hd).2
  have hk : ∀ j, j < 256 → Memory.const
      (forUp d (fun c x => x.setMat col c (gfDiv poly (x.mat col c) (m.mat col col))) m) j = m.const j :=
    fun j hj => h _ fun c _ => constAddr_ne_matAddr hj
  rw [normalize, Memory.const_setConst, hk i hi, hk col (hcol.trans_le hd)]

/-! ### Elimination -/

theorem eliminateRow_row {d col r : Nat} (poly : Poly) (f : Byte) (m : Memory) (hd : d ≤ 256) (hr : r ≠ col) :
    (∀ r' c, c < 256 →
      (forUp d (fun c x => x.setMat r c (x.mat r c ^^^ gfMul poly f (x.mat col c))) m).mat r' c =
        if r' = r ∧ c < d then m.mat r c ^^^ gfMul poly f (m.mat col c) else m.mat r' c) ∧
    ∀ a, (∀ c, c < d → a ≠ matAddr r c) →
      (forUp d (fun c x => x.setMat r c (x.mat r c ^^^ gfMul poly f (x.mat col c))) m).read a = m.read a := by
  refine forUp_row m (fun c x => x.mat r c ^^^ gfMul poly f (x.mat col c)) hd fun c x hc hx => ?_
  have h1 : x.mat r c = m.mat r c := hx _ fun i hi h =>
    absurd ((matAddr_inj (hc.trans_le hd) ((hi.trans hc).trans_le hd)).mp h).2 (Nat.ne_of_gt hi)
  have h2 : x.mat col c = m.mat col c := hx _ fun i hi h =>
    absurd ((matAddr_inj (hc.trans_le hd) ((hi.trans hc).trans_le hd)).mp h).1.symm hr
  simp only [h1, h2]

theorem eliminateRow_mat {d col r r' c : Nat} (poly : Poly) (m : Memory) (hd : d ≤ 256) (hr : r ≠ col)
    (hrd : r < d) (hc : c < 256) :
    (eliminateRow poly d col r m).mat r' c =
      if r' = r ∧ c < d then m.mat r c ^^^ gfMul poly (m.mat r col) (m.mat col c) else m.mat r' c := by
  rw [eliminateRow, Memory.mat_setConst _ _ (hrd.trans_le hd)]
  exact (eliminateRow_row poly (m.mat r col) m hd hr).1 r' c hc

theorem eliminateRow_const {d col r i : Nat} (poly : Poly) (m : Memory) (hd : d ≤ 256) (hr : r ≠ col)
    (hrd : r < d) (hcol : col < d) (hi : i < 256) :
    (eliminateRow poly d col r m).const i =
      if i = r then m.const r ^^^ gfMul poly (m.mat r col) (m.const col) else m.const i := by
  have h := (eliminateRow_row poly (m.mat r col) m hd hr).2
  have hk : ∀ j, j < 256 → Memory.const
      (forUp d (fun c x => x.setMat r c (x.mat r c ^^^ gfMul poly (m.mat r col) (x.mat col c))) m) j =
        m.const j := fun j hj => h _ fun c _ => constAddr_ne_matAddr hj
  rw [eliminateRow, Memory.const_setConst, hk i hi, hk r (hrd.trans_le hd), hk col (hcol.trans_le hd)]

/-- What `Eliminate(D, col)` leaves in MAT and CONST (R146): row `col` as it was, every other row and constant
reduced by its old element in column `col`. -/
theorem eliminate_spec {d col : Nat} (poly : Poly) (m : Memory) (hd : d ≤ 256) (hcol : col < d) :
    (∀ r c, c < 256 → (eliminate poly d col m).mat r c =
      if r < d ∧ r ≠ col ∧ c < d then m.mat r c ^^^ gfMul poly (m.mat r col) (m.mat col c) else m.mat r c) ∧
    ∀ i, i < 256 → (eliminate poly d col m).const i =
      if i < d ∧ i ≠ col then m.const i ^^^ gfMul poly (m.mat i col) (m.const col) else m.const i := by
  refine forUp_invariant
    (P := fun (k : Nat) (x : Memory) =>
      (∀ r c, c < 256 → x.mat r c =
        if r < k ∧ r ≠ col ∧ c < d then m.mat r c ^^^ gfMul poly (m.mat r col) (m.mat col c)
        else m.mat r c) ∧
      ∀ i, i < 256 → x.const i =
        if i < k ∧ i ≠ col then m.const i ^^^ gfMul poly (m.mat i col) (m.const col) else m.const i)
    ⟨fun r c _ => by simp, fun i _ => by simp⟩ ?_
  intro k x hk ⟨hm, hcst⟩
  have hcol' : col < 256 := hcol.trans_le hd
  by_cases hkc : k = col
  · subst hkc
    simp only [if_true]
    refine ⟨fun r c hc => ?_, fun i hi => ?_⟩
    · rw [hm r c hc]; congr 1; rw [eq_iff_iff]; omega
    · rw [hcst i hi]; congr 1; rw [eq_iff_iff]; omega
  simp only [if_neg hkc]
  have hkk : ∀ c, c < 256 → x.mat k c = m.mat k c := fun c hc => by
    rw [hm k c hc, if_neg (fun h => lt_irrefl k h.1)]
  have hcc : ∀ c, c < 256 → x.mat col c = m.mat col c := fun c hc => by
    rw [hm col c hc, if_neg (fun h => h.2.1 rfl)]
  refine ⟨fun r c hc => ?_, fun i hi => ?_⟩
  · rw [eliminateRow_mat poly x hd hkc hk hc, hkk c hc, hkk col hcol', hcc c hc, hm r c hc]
    by_cases hr : r = k
    · subst hr; simp [hkc]
    · have : (r < k + 1) = (r < k) := by rw [eq_iff_iff]; omega
      simp [hr, this]
  · rw [eliminateRow_const poly x hd hkc hk hcol hi, hkk col hcol', hcst i hi, hcst k (hk.trans_le hd),
      hcst col hcol']
    by_cases hr : i = k
    · subst hr; simp [hkc]
    · have : (i < k + 1) = (i < k) := by rw [eq_iff_iff]; omega
      simp [hr, this]

end Sys2Proof.Machine
end

