-- ==== Sys2Proof/Laws/SolverFrame.lean ====
section
/-! SUPPORT. The elimination procedure touches nothing outside its system and keeps the buffers' canonical form
(42_solver.md R144, R147, R148). -/

namespace Sys2Proof.Machine

/-- `m'` holds the same byte as `m` at every offset that is no `MAT[r][c]` with `r, c < d` and no `CONST[i]` with
`i < d`. -/
def SameOutside (d : Nat) (m m' : Memory) : Prop :=
  ∀ a, (∀ r c, r < d → c < d → a ≠ matAddr r c) → (∀ i, i < d → a ≠ constAddr i) → m'.read a = m.read a

theorem SameOutside.refl (d : Nat) (m : Memory) : SameOutside d m m := fun _ _ _ => rfl

theorem SameOutside.trans {d : Nat} {m m' m'' : Memory} (h : SameOutside d m m') (h' : SameOutside d m' m'') :
    SameOutside d m m'' := fun a hm hc => (h' a hm hc).trans (h a hm hc)

theorem SameOutside.setMat {d r c : Nat} (m : Memory) (v : Byte) (hr : r < d) (hc : c < d) :
    SameOutside d m (m.setMat r c v) := fun _ hm _ => Memory.read_write_other _ _ (hm r c hr hc)

theorem SameOutside.setConst {d i : Nat} (m : Memory) (v : Byte) (hi : i < d) :
    SameOutside d m (m.setConst i v) := fun _ _ hc => Memory.read_write_other _ _ (hc i hi)

theorem SameOutside.loop {d n : Nat} {f : Nat → Memory → Memory} (m : Memory)
    (hf : ∀ i x, i < n → SameOutside d x (f i x)) : SameOutside d m (forUp n f m) :=
  forUp_invariant (P := fun _ (x : Memory) => SameOutside d m x) (SameOutside.refl d m)
    fun i x hi hx => hx.trans (hf i x hi)

theorem swapRows_sameOutside {d piv col : Nat} (m : Memory) (hp : piv < d) (hcol : col < d) :
    SameOutside d m (swapRows d piv col m) := by
  rw [swapRows]
  split_ifs
  · exact .refl d m
  · exact (SameOutside.loop m fun c x hc => (SameOutside.setMat x _ hp hc).trans (.setMat _ _ hcol hc)).trans
      ((SameOutside.setConst _ _ hp).trans (.setConst _ _ hcol))

theorem normalize_sameOutside {d col : Nat} (poly : Poly) (m : Memory) (hcol : col < d) :
    SameOutside d m (normalize poly d col m) :=
  (SameOutside.loop m fun _ x hc => .setMat x _ hcol hc).trans (.setConst _ _ hcol)

theorem eliminate_sameOutside {d col : Nat} (poly : Poly) (m : Memory) :
    SameOutside d m (eliminate poly d col m) :=
  SameOutside.loop m fun r x hr => by
    split_ifs
    · exact .refl d x
    · exact (SameOutside.loop x fun c y hc => .setMat y _ hr hc).trans (.setConst _ _ hr)

/-- The buffers at the end of `SolveCore`. -/
def SolveEnd.mem : SolveEnd → Memory
  | .solved _ m => m
  | .stopped _ m => m

theorem solveColumns_sameOutside (poly : Poly) {d : Nat} (k : Nat) : ∀ (col : Nat) (m : Memory), col + k ≤ d →
    SameOutside d m (solveColumns poly d k col m).mem := by
  induction k with
  | zero => exact fun col m _ => .refl d m
  | succ k ih =>
    intro col m hk
    rw [solveColumns]
    split
    · exact .refl d m
    · next piv h =>
      have hp := (lowest_eq_some h).1
      have hcol : col < d := by omega
      exact (((swapRows_sameOutside m hp hcol).trans (normalize_sameOutside poly _ hcol)).trans
        (eliminate_sameOutside poly _)).trans (ih (col + 1) _ (by omega))

/-- `SolveCore` writes only its system's coefficients and constants, whatever its outcome. -/
theorem solveCore_sameOutside (poly : Poly) (d r c : Byte) (m : Memory) :
    SameOutside d.toNat m (solveCore poly d r c m).mem := by
  rw [solveCore]
  split
  · exact .refl _ m
  · exact solveColumns_sameOutside poly d.toNat 0 m (by omega)

theorem swapRows_wf {d piv col : Nat} {m : Memory} (h : m.wf) (hd : d ≤ 256) (hp : piv < d) (hcol : col < d) :
    (swapRows d piv col m).wf := by
  rw [swapRows]
  split_ifs
  · exact h
  · refine Memory.write_wf (Memory.write_wf (forUp_wf h fun c x hc hx => ?_) ?_ _) ?_ _
    · exact Memory.write_wf (Memory.write_wf hx (isBufAddr_matAddr (hp.trans_le hd) (hc.trans_le hd)) _)
        (isBufAddr_matAddr (hcol.trans_le hd) (hc.trans_le hd)) _
    · exact isBufAddr_constAddr (hp.trans_le hd)
    · exact isBufAddr_constAddr (hcol.trans_le hd)

theorem normalize_wf {d col : Nat} (poly : Poly) {m : Memory} (h : m.wf) (hd : d ≤ 256) (hcol : col < d) :
    (normalize poly d col m).wf :=
  Memory.write_wf
    (forUp_wf h fun _ _ hc hx => Memory.write_wf hx (isBufAddr_matAddr (hcol.trans_le hd) (hc.trans_le hd)) _)
    (isBufAddr_constAddr (hcol.trans_le hd)) _

theorem eliminate_wf {d col : Nat} (poly : Poly) {m : Memory} (h : m.wf) (hd : d ≤ 256) :
    (eliminate poly d col m).wf :=
  forUp_wf h fun r x hr hx => by
    split_ifs
    · exact hx
    · exact Memory.write_wf
        (forUp_wf hx fun c y hc hy => Memory.write_wf hy (isBufAddr_matAddr (hr.trans_le hd) (hc.trans_le hd)) _)
        (isBufAddr_constAddr (hr.trans_le hd)) _

theorem solveColumns_wf (poly : Poly) {d : Nat} (hd : d ≤ 256) (k : Nat) : ∀ (col : Nat) (m : Memory),
    col + k ≤ d → m.wf → (solveColumns poly d k col m).mem.wf := by
  induction k with
  | zero => exact fun col m _ h => h
  | succ k ih =>
    intro col m hk hm
    rw [solveColumns]
    split
    · exact hm
    · next piv h =>
      have hp := (lowest_eq_some h).1
      have hcol : col < d := by omega
      exact ih (col + 1) _ (by omega)
        (eliminate_wf poly (normalize_wf poly (swapRows_wf hm hd hp hcol) hd hcol) hd)

/-- `SolveCore` keeps the buffers' canonical form. -/
theorem solveCore_wf (poly : Poly) (d r c : Byte) {m : Memory} (h : m.wf) : (solveCore poly d r c m).mem.wf := by
  rw [solveCore]
  split
  · exact h
  · exact solveColumns_wf poly (by omega) d.toNat 0 m (by omega) h

end Sys2Proof.Machine
end

