-- ==== Sys2Proof/Machine/Assembler.lean ====
section
/-! DEFINITION. The assembler text of a command (30_encoding.md R97): the mnemonic, then the used operands
in field order, a MAT row written with an r before its number. -/

namespace Sys2Proof.Machine

/-- A number operand: a field element, a secret byte, a degree or a count. -/
def asmNum (v : Byte) : String := toString v.toNat

/-- A MAT row operand. -/
def asmRow (v : Byte) : String := "r" ++ asmNum v

/-- The text of a command (R97). -/
def asm : Instr → String
  | .nop => "NOP"
  | .gmul a b => "GMUL " ++ asmNum a ++ ", " ++ asmNum b
  | .gdiv a b => "GDIV " ++ asmNum a ++ ", " ++ asmNum b
  | .ginv x => "GINV " ++ asmNum x
  | .eval ra rb n => "EVAL " ++ asmRow ra ++ ", " ++ asmRow rb ++ ", " ++ asmNum n
  | .heval ra rb n => "HEVAL " ++ asmRow ra ++ ", " ++ asmRow rb ++ ", " ++ asmNum n
  | .solve d r c => "SOLVE " ++ asmNum d ++ ", " ++ asmNum r ++ ", " ++ asmNum c
  | .splitInit => "SPLIT_INIT"
  | .splitByte s => "SPLIT_BYTE " ++ asmNum s
  | .combineInit => "COMBINE_INIT"
  | .combineByte => "COMBINE_BYTE"
  | .abort => "ABORT"

end Sys2Proof.Machine
end

