-- ==== Sys2Proof/Tests/Slice0.lean ====
section
/-! SUPPORT. The model's own tests: one step each on a small state, with the expected values of
spec/95_test_vectors.md or of the rule named, and for every statement with hypotheses a witness that meets them. -/

namespace Sys2Proof.Tests

-- One theorem at a time: each waiting kernel evaluation would hold a thread of its own.
set_option Elab.async false

open Sys2Proof Sys2Proof.Machine

/-! ### Helpers -/

/-- The state after one step, if it does not stop. -/
def after (s : State) : Option State :=
  match step s with
  | .next t => some t
  | _ => none

/-- RESULT and the ERR fields after one step. -/
def ends (s : State) : Option (Byte × Err) := (after s).map (fun t => (t.result, t.err))

/-- The state after reset with MAT rows, CONST and ROWLEN written from row 0 and element 0 up. -/
def loaded (rows : List (List Byte)) (consts lens : List Byte) : State :=
  let m1 := forUp rows.length (fun r m =>
    forUp (rows.getD r []).length (fun c m => m.setMat r c ((rows.getD r []).getD c 0)) m) State.reset.mem
  let m2 := forUp consts.length (fun i m => m.setConst i (consts.getD i 0)) m1
  State.reset.setMem (forUp lens.length (fun i m => m.setRowlen i (lens.getD i 0)) m2)

/-- The state after reset with one event at the inputs. -/
def at1 (e : Event) : State := { State.reset with inputs := [e] }

/-- A session state with its counters. -/
def inSession (x : Sess) (j l : Word) (np kl : Byte) (s : State) : State :=
  { s with sess := x, sessJ := j, sessL := l, sessNP := np, sessKL := kl }

/-- A pending command. -/
def busyWith (w : Word) (s : State) : State := { s with cmd := w, pending := some w }

/-! ### Encoding (30_encoding.md R90 to R97, 95_test_vectors.md section 2.6) -/

theorem test_decode_control : decode 0x00000000 = .instr .nop ∧ decode 0x3F000000 = .instr .abort := by decide

theorem test_decode_field : decode 0x01578300 = .instr (.gmul 0x57 0x83) ∧
    decode 0x02090700 = .instr (.gdiv 9 7) ∧ decode 0x03530000 = .instr (.ginv 0x53) := by decide

theorem test_decode_solver : decode 0x10000103 = .instr (.eval 0 1 3) ∧
    decode 0x11000103 = .instr (.heval 0 1 3) ∧ decode 0x12020102 = .instr (.solve 2 1 2) := by decide

theorem test_decode_codec : decode 0x20000000 = .instr .splitInit ∧
    decode 0x21480000 = .instr (.splitByte 0x48) ∧ decode 0x30000000 = .instr .combineInit ∧
    decode 0x31000000 = .instr .combineByte := by decide

theorem test_decode_illegal : decode 0x7F000000 = .illegal (.opcode 0x7F) ∧
    decode 0x04000000 = .illegal (.opcode 0x04) ∧ decode 0x00000001 = .illegal (.rsvdField 0x00) ∧
    decode 0x3F010000 = .illegal (.rsvdField 0x3F) ∧ decode 0x21480001 = .illegal (.rsvdField 0x21) ∧
    decode 0x31000100 = .illegal (.rsvdField 0x31) ∧ decode 0x7F000001 = .illegal (.opcode 0x7F) := by decide

theorem test_opcodes_distinct : (opcodeTable.map (·.op)).Nodup := by decide

theorem test_decode_table_word : decodeTableWord 32 0x21000000 = some (.splitByte 0) ∧
    decodeTableWord 32 0x04000000 = none := by decide

/-- Each check of `Format.reservedZero` refuses an ill-formed term. -/
theorem test_reserved_fields_refused :
    Format.f0.reservedZero ⟨1, 0, 0⟩ = false ∧ Format.f0.reservedZero ⟨0, 1, 0⟩ = false ∧
    Format.f0.reservedZero ⟨0, 0, 1⟩ = false ∧ Format.f1.reservedZero ⟨5, 1, 0⟩ = false ∧
    Format.f1.reservedZero ⟨5, 0, 1⟩ = false ∧ Format.f2.reservedZero ⟨5, 6, 1⟩ = false ∧
    Format.f3.reservedZero ⟨5, 6, 7⟩ = true := by decide

theorem test_asm : asm (.gmul 3 7) = "GMUL 3, 7" ∧ asm (.eval 0 1 3) = "EVAL r0, r1, 3" ∧
    asm (.solve 3 3 3) = "SOLVE 3, 3, 3" ∧ asm .combineByte = "COMBINE_BYTE" := by decide +kernel

theorem test_pseudo : encode (.gsqr 3) = 0x01030300 ∧ encode (.gmov 5) = 0x01050100 ∧
    encode (.solven 3) = 0x12030303 ∧ encode (.dotsq 2 4) = 0x10020204 := by decide

/-! ### Control and field unit (40_control.md, 95_test_vectors.md sections 2 and 4.3) -/

/-- V-B14. -/
theorem test_nop_clears_err :
    ends ({ State.reset with err := ⟨5, 1, 5⟩, result := 9 }.withIssued 0x00000000) = some (0, ⟨0, 0, 0⟩) := by
  decide

/-- V-T6. -/
theorem test_abort_keeps_j :
    (after ((inSession .split 5 9 3 2 State.reset).withIssued 0x3F000000)).map (fun t => (t.sess, t.sessJ)) =
      some (.idle, 5) := by decide

theorem test_illegal_word : ends (State.reset.withIssued 0x7F000000) = some (0, ⟨6, 1, 0x7F⟩) ∧
    ends (State.reset.withIssued 0x21480001) = some (0, ⟨6, 2, 0x21⟩) := by decide

theorem test_gmul : ends (State.reset.withIssued 0x01578300) = some (0xC1, ⟨0, 0, 0⟩) ∧
    ends (State.reset.withIssued 0x01030300) = some (0x05, ⟨0, 0, 0⟩) := by decide +kernel

theorem test_gmul_poly_11D :
    ends ({ State.reset with poly := 0x11D }.withIssued 0x01808000) = some (0x13, ⟨0, 0, 0⟩) := by decide +kernel

theorem test_gdiv : ends (State.reset.withIssued 0x021B0200) = some (0x80, ⟨0, 0, 0⟩) := by decide +kernel

theorem test_gdiv_by_zero : ends (State.reset.withIssued 0x02050000) = some (0, ⟨5, 1, 5⟩) ∧
    ends (State.reset.withIssued 0x02000000) = some (0, ⟨5, 1, 0⟩) := by decide

theorem test_ginv : ends (State.reset.withIssued 0x03020000) = some (0x8D, ⟨0, 0, 0⟩) ∧
    ends ({ State.reset with poly := 0x11D }.withIssued 0x03530000) = some (0x8C, ⟨0, 0, 0⟩) := by decide +kernel

theorem test_ginv_zero : ends (State.reset.withIssued 0x03000000) = some (0, ⟨5, 2, 0⟩) := by decide

/-- Row 0xF of the table of R126 and row 0xF of the table of 95_test_vectors.md section 2.4. -/
theorem test_invtab_rows :
    (List.range 16).map (fun k => invtab 0x11B (BitVec.ofNat 8 (0xF0 + k))) =
      [0x5B, 0x23, 0x38, 0x34, 0x68, 0x46, 0x03, 0x8C, 0xDD, 0x9C, 0x7D, 0xA0, 0xCD, 0x1A, 0x41, 0x1C] ∧
    (List.range 16).map (fun k => invtab 0x11D (BitVec.ofNat 8 (0xF0 + k))) =
      [0xE3, 0xE7, 0xB5, 0xEA, 0x03, 0x8F, 0xD3, 0xC9, 0x42, 0xD4, 0xE8, 0x75, 0x7F, 0xFF, 0x7E, 0xFD] := by
  decide +kernel

/-! ### Solver unit (95_test_vectors.md section 3) -/

theorem test_eval : ends ((loaded [[0x57, 0x13], [0x83, 0x01]] [] []).withIssued 0x10000102) =
    some (0xD2, ⟨0, 0, 0⟩) := by decide +kernel

theorem test_eval_heval_of_the_source :
    ends ((loaded [[3, 3, 3], [7, 7, 7]] [] []).withIssued 0x10000103) = some (0x09, ⟨0, 0, 0⟩) ∧
    ends ((loaded [[3, 3, 3], [7, 7, 7]] [] []).withIssued 0x11000103) = some (0x07, ⟨0, 0, 0⟩) := by
  decide +kernel

theorem test_heval : ends ((loaded [[0x57, 0x13], [0x83, 0x01]] [] []).withIssued 0x11000102) =
    some (0xC0, ⟨0, 0, 0⟩) ∧ ends (State.reset.withIssued 0x11000100) = some (0, ⟨0, 0, 0⟩) := by decide +kernel

/-- V-S4: a swap at column 0. -/
theorem test_solve_swaps :
    (after ((loaded [[0, 1], [1, 0]] [5, 6] [2, 2]).withIssued 0x12020202)).map (fun t =>
      (t.result, t.err, t.mem.const 1, t.mem.mat 0 0, t.mem.mat 0 1)) = some (6, ⟨0, 0, 0⟩, 5, 1, 0) := by
  decide +kernel

/-- V-S7: the partial state at E_SINGULAR. -/
theorem test_solve_singular :
    (after ((loaded [[1, 2, 3], [1, 2, 3], [4, 5, 6]] [1, 1, 1] [3, 3, 3]).withIssued 0x12030303)).map (fun t =>
      (t.err, [0, 1, 2].map (fun r => [0, 1, 2].map (t.mem.mat r)), [0, 1, 2].map t.mem.const)) =
      some (⟨3, 0, 2⟩, [[1, 0, 0x38], [0, 1, 0x90], [0, 0, 0]], [0x91, 0x48, 0]) := by decide +kernel

/-- V-S15, V-S8, V-S10 and V-S11: the order of the checks. -/
theorem test_solve_dims :
    ends ((loaded [] [] [1, 3]).withIssued 0x12020102) = some (0, ⟨2, 1, 1⟩) ∧
    ends ((loaded [] [] [2, 3]).withIssued 0x12020202) = some (0, ⟨2, 2, 1⟩) ∧
    ends ((loaded [] [] [2, 2]).withIssued 0x12020201) = some (0, ⟨2, 3, 1⟩) ∧
    ends (State.reset.withIssued 0x12000000) = some (0, ⟨2, 4, 0⟩) := by decide +kernel

/-! ### Coordinator (95_test_vectors.md section 4, programs P3 and P4) -/

/-- The example of R171. -/
theorem test_split_init :
    (after ({ State.reset with cfgN := 8, cfgK := 3, cfgL := 18 }.withIssued 0x20000000)).map (fun t =>
      (t.err, t.sess, regRead .sessNK t, t.sessL, t.sessJ)) = some (⟨0, 0, 0⟩, .split, 0x308, 18, 0) := by
  decide +kernel

/-- V-C3 and V-C6. -/
theorem test_split_init_errors :
    ends ({ State.reset with cfgN := 1000, cfgK := 3, cfgL := 5 }.withIssued 0x20000000) = some (0, ⟨1, 3, 0⟩) ∧
    ends ({ State.reset with cfgN := 300, cfgK := 256, cfgL := 0 }.withIssued 0x20000000) =
      some (0, ⟨1, 2, 0⟩) := by decide +kernel

/-- Columns `cs` of MAT rows 0, 1, 2, and ROWLEN[0..2]. -/
def rows3 (cs : List Nat) (t : State) : List Byte :=
  [0, 1, 2].flatMap (fun p => cs.map (t.mem.mat p)) ++ [0, 1, 2].map t.mem.rowlen

/-- The session of P3 with the first four draws. -/
def p3 : State := { inSession .split 0 2 3 2 State.reset with
  rng := [.byte 0x11, .byte 0x22, .byte 0x33, .byte 0x44] }

/-- The first SPLIT_BYTE of P3. -/
theorem test_split_byte :
    (after (p3.withIssued 0x21480000)).map (rows3 [0, 1]) =
      some [0x11, 0xA4, 0x22, 0x53, 0x33, 0xF7, 2, 2, 2] ∧
    (after (p3.withIssued 0x21480000)).map (fun t => (t.err, t.sessJ, t.sess, t.draws, t.rng)) =
      some (⟨0, 0, 0⟩, 1, .split, 3, [.byte 0x44]) := by decide +kernel

/-- The session of section 4.4, whose fourth draw fails. -/
def failing : State := { inSession .split 0 4 3 3 State.reset with
  rng := [.byte 9, .byte 8, .byte 7, .fail] }

/-- Section 4.4. -/
theorem test_split_byte_draw_fails :
    (after (failing.withIssued 0x215A0000)).map (rows3 [0, 1, 2]) = some [0, 0, 0, 0, 0, 0, 0, 0, 0, 0, 0, 0] ∧
    (after (failing.withIssued 0x215A0000)).map (fun t => (t.err, t.sessJ, t.sess, t.draws)) =
      some (⟨4, 1, 1⟩, 0, .idle, 4) := by decide +kernel

/-- OLEN[p] written as words through the bus. -/
def outerLens (p : Half) (l0 l1 l2 : Word) : State :=
  hostWrite 0x808 .word l2 (hostWrite 0x804 .word l1 (hostWrite 0x800 .word l0 { State.reset with cfgP := p }))

/-- V-C12b and V-C12a. -/
theorem test_combine_init :
    (after ((outerLens 2 5 5 0).withIssued 0x30000000)).map (fun t =>
      (t.err, t.sess, t.sessL, regRead .sessNK t)) = some (⟨0, 0, 0⟩, .combine, 5, 2) ∧
    (after ((outerLens 2 0 0 0).withIssued 0x30000000)).map (fun t => (t.err, t.sess)) =
      some (⟨0, 0, 0⟩, .idle) := by decide +kernel

/-- V-C9, V-C10 and V-C11. -/
theorem test_combine_init_errors :
    ends ((outerLens 1 2 2 2).withIssued 0x30000000) = some (0, ⟨1, 7, 0⟩) ∧
    ends ((outerLens 256 2 2 2).withIssued 0x30000000) = some (0, ⟨1, 8, 0⟩) ∧
    ends ((outerLens 3 2 2 3).withIssued 0x30000000) = some (0, ⟨1, 9, 2⟩) := by decide +kernel

/-- The first COMBINE_BYTE of P3, and V-C16, the last byte of its session. -/
theorem test_combine_byte :
    (after ((inSession .combine 0 2 2 0 (loaded [[0x33, 0xF7], [0x11, 0xA4]] [] [2, 2])).withIssued
      0x31000000)).map (fun t => (t.result, t.err, t.sessJ, t.sess, t.mem.const 1)) =
      some (0x48, ⟨0, 0, 0⟩, 1, .combine, 0) ∧
    (after ((inSession .combine 0 1 2 0 (loaded [[0x5A], [0x77]] [] [1, 1])).withIssued
      0x31000000)).map (fun t => (t.result, t.err, t.sess)) = some (0x5A, ⟨0, 0, 0⟩, .idle) := by decide +kernel

/-- V-C13, V-C15, V-C14 and V-C17. -/
theorem test_combine_byte_errors :
    ends ((inSession .combine 0 1 3 0 (loaded [] [] [3, 3, 2])).withIssued 0x31000000) = some (0, ⟨1, 10, 2⟩) ∧
    ends ((inSession .combine 0 1 2 0 (loaded [] [] [3, 3])).withIssued 0x31000000) = some (0, ⟨2, 1, 2⟩) ∧
    ends ((inSession .combine 0 1 2 0 (loaded [] [] [0, 0])).withIssued 0x31000000) = some (0, ⟨2, 4, 0⟩) ∧
    (after ((inSession .combine 0 1 2 0 (loaded [[0x11, 0xA4], [0x11, 0xA4]] [] [2, 2])).withIssued
      0x31000000)).map (fun t => (t.err, t.sess, t.mem.mat 0 1, t.mem.mat 1 1, t.mem.const 0)) =
      some (⟨3, 0, 1⟩, .idle, 0xB4, 0, 0x48) := by decide +kernel

/-- V-T1, V-T3 and V-T5. -/
theorem test_wrong_session :
    ends (State.reset.withIssued 0x21000000) = some (0, ⟨7, 2, 0⟩) ∧
    ends ((inSession .split 0 2 3 2 State.reset).withIssued 0x20000000) = some (0, ⟨7, 1, 0⟩) ∧
    ends ((inSession .combine 0 2 3 0 State.reset).withIssued 0x21110000) = some (0, ⟨7, 2, 0⟩) := by decide

/-! ### Host bus (95_test_vectors.md section 5) -/

/-- The answer of one step. -/
def answers (s : State) : Option BusReply := (after s).bind (·.reply)

/-- V-B1. -/
theorem test_word_write_little_endian :
    (after (at1 (.write 0x10000 .word 0x04030201))).map (fun t => [0, 1, 2, 3].map (t.mem.mat 0)) =
      some [1, 2, 3, 4] := by decide +kernel

/-- V-B2 and V-B3. -/
theorem test_half_read :
    answers { loaded [[1, 2, 3, 4]] [] [] with inputs := [.read 0x10002 .half] } = some (.data 0x0403) ∧
    answers { loaded [[1, 2, 3, 4]] [] [] with inputs := [.read 0x10001 .half] } = some .busError := by
  decide +kernel

/-- V-B4, V-B5, V-B6, V-B7 and V-B8. -/
theorem test_bus_map :
    answers (at1 (.read 0x008 .byte)) = some .busError ∧ answers (at1 (.read 0x000 .word)) = some (.data 0x47463031) ∧
    answers (at1 (.read 0x040 .word)) = some (.data 0) ∧ answers (at1 (.write 0x500 .word 1)) = some .busError ∧
    answers (at1 (.write 0x802 .half 1)) = some .busError := by decide

/-- V-B9: the write is dropped, OVR is set and the pending command stays. -/
theorem test_busy_cmd_write :
    (after { busyWith 0x01030700 State.reset with inputs := [.write 0x00C .word 0x00000000] }).map (fun t =>
      (t.pending, t.cmd, t.ovr)) = some (some 0x01030700, 0x01030700, true) := by decide

/-- V-B11. -/
theorem test_status_w1c :
    (after { State.reset with done := true, ovr := true, inputs := [.write 0x008 .word 6] }).map (fun t =>
      (t.done, t.ovr)) = some (false, false) := by decide

/-- V-B12 and the end state of P1. -/
theorem test_irq_and_status :
    (after ({ State.reset with ie := true }.withIssued 0x7F000000)).map (fun t =>
      (t.irq, regRead .status t, regRead .err t)) = some (true, 0x0000000A, 0x007F0106) := by decide

/-- Host read of INVTAB (95_test_vectors.md section 2.3). -/
theorem test_invtab_read : answers (at1 (.read 0x300 .word)) = some (.data 0xF68D0100) := by decide +kernel

/-- A reset while BUSY discards the command and keeps OLEN. -/
theorem test_rst_busy :
    (after { busyWith 0x12030303 (outerLens 3 7 8 9) with inputs := [.rst] }).map (fun t =>
      (t.pending, t.cmd, t.cfgP, t.mem.olen 1, t.mem.bufGen)) = some (none, 0, 0, 8, 1) := by decide +kernel

/-! ### The host's protocols -/

/-- The shares of HOST_SPLIT of the byte 0x48 under two draws of P3. -/
theorem test_host_split :
    (match hostSplit [0x48] 2 2 { State.reset with rng := [.byte 0x11, .byte 0x22] } with
      | .ok shares _ => some shares
      | _ => none) = some [[[0x11, 0xA4]], [[0x22, 0x53]]] := by decide +kernel

/-- HOST_COMBINE of those shares in the other order. -/
theorem test_host_combine :
    (match hostCombine [[[0x22, 0x53]], [[0x11, 0xA4]]] State.reset with
      | .ok secret _ => some secret
      | _ => none) = some [0x48] := by decide +kernel

end Sys2Proof.Tests
end

