-- ==== Sys2Proof/Tests/Witnesses.lean ====
section
/-! SUPPORT. For every statement with hypotheses, concrete states and operands that meet all of them together, at
the ends of the ranges its clauses name. -/

namespace Sys2Proof.Tests

-- One theorem at a time: each waiting kernel evaluation would hold a thread of its own.
set_option Elab.async false

open Sys2Proof Sys2Proof.Machine

/-! ### Helpers -/

/-- The next state of an outcome that has one. -/
def nextOf (o : Host.Outcome State Fault Refusal) : State :=
  match o with
  | .next t => t
  | _ => State.reset

/-- The outcome is a next state. -/
def isNext (o : Host.Outcome State Fault Refusal) : Bool :=
  match o with
  | .next _ => true
  | _ => false

theorem eq_next_of_isNext {o : Host.Outcome State Fault Refusal} (h : isNext o = true) : o = .next (nextOf o) := by
  cases o <;> simp_all [isNext, nextOf]

/-- A pending NOP and one event at the inputs. -/
def busyAt (e : Event) : State := { busyWith 0 State.reset with inputs := [e] }

theorem legal_11B : Config.legalPoly State.reset.poly = true := by decide

/-! ### Encoding and the step -/

theorem witness_DecodedWordIsTheCommandsOnlyWord : decode 0x01030700 = .instr (.gmul 3 7) := by decide

theorem witness_DecodeChecksOpcodeThenReservedFields :
    opField 0x13000000 = 0x13 ∧ opField 0x3E000000 = 0x3E ∧ opField 0x40000000 = 0x40 ∧
    (operandFields 0x00010000).a ≠ 0 ∧ (operandFields 0x03000100).b ≠ 0 ∧ (operandFields 0x01000001).c ≠ 0 ∧
    operandFields 0x21FF0000 = ⟨0xFF, 0, 0⟩ := by decide

theorem witness_StepRunsThePendingCommand :
    (busyWith 0x01030700 State.reset).pending = some 0x01030700 ∧ decode 0x01030700 = .instr (.gmul 3 7) ∧
    (busyWith 0x01030700 State.reset).inputs = [] ∧
    (State.reset.withIssued 0x01030700).pending = some 0x01030700 ∧
    (State.reset.withIssued 0x01030700).arrives .completion ∧
    (busyWith 0xFF000000 State.reset).pending = some 0xFF000000 ∧ decode 0xFF000000 = .illegal (.opcode 0xFF) ∧
    State.reset.inputs = [] ∧ State.reset.pending = none ∧
    (at1 .completion).arrives .completion ∧ (at1 .completion).pending = none := by decide

theorem witness_EveryStateAnswers : exec .nop State.reset = .next (State.reset.okEnd 0) := rfl

/-! ### Reset -/

theorem witness_ResetSetsEveryRegister : (at1 .rst).arrives .rst ∧ (at1 .powerOn).arrives .powerOn := by decide

theorem witness_ResetKeepsOrRedrawsTheBuffers :
    ((at1 .rst).arrives .rst ∧ (at1 .rst).pending = none) ∧
    ((busyAt .rst).arrives .rst ∧ (busyAt .rst).pending ≠ none) ∧ (at1 .powerOn).arrives .powerOn := by decide

/-! ### Host accesses -/

theorem witness_ReservedRegistersReadZeroAndIgnoreWrites :
    (0x34 ≤ 0x34 ∧ 0x34 ≤ 0xFF ∧ 0x34 % 4 = 0 ∧ (at1 (.read 0x34 .word)).arrives (.read 0x34 .word)) ∧
    (0x34 ≤ 0xFC ∧ 0xFC ≤ 0xFF ∧ 0xFC % 4 = 0 ∧ (at1 (.write 0xFC .word 7)).arrives (.write 0xFC .word 7)) := by
  decide

theorem witness_RegisterReadsShowTheirFields :
    ∀ k, k < 13 → (at1 (.read (4 * k) .word)).arrives (.read (4 * k) .word) := fun _ _ => rfl

theorem witness_BusErrorsChangeNothing :
    ((at1 (.read 0x1FFFF .half)).arrives (.read 0x1FFFF .half) ∧ 0x1FFFF < 0x20000 ∧
      0x1FFFF % Width.half.bytes ≠ 0) ∧
    ((at1 (.write 0x400 .byte 1)).arrives (.write 0x400 .byte 1) ∧ 0x400 ≤ 0x400 ∧ 0x400 ≤ 0x7FF) ∧
    ((at1 (.read 0xFFFC .word)).arrives (.read 0xFFFC .word) ∧ 0xC00 ≤ 0xFFFC ∧ 0xFFFC ≤ 0xFFFF) ∧
    ((at1 (.read 0xBFE .half)).arrives (.read 0xBFE .half) ∧ Width.half ≠ .word ∧ 0x800 ≤ 0xBFE ∧ 0xBFE ≤ 0xBFF) := by decide +kernel

theorem witness_UndecodedOffsetsReachNothing :
    (at1 (.read 0x20000 .word)).arrives (.read 0x20000 .word) ∧ 0x20000 ≤ 0x20000 := by decide +kernel

theorem witness_ReadsHaveNoSideEffect : (at1 (.read 0x10000 .word)).arrives (.read 0x10000 .word) := by decide

theorem witness_BufferWriteStoresItsBytesOnly :
    (at1 (.write 0x2FE .half 0x1234)).pending = none ∧ 0x2FE % Width.half.bytes = 0 ∧ 0x2FE ≤ 0x2FF ∧
    (at1 (.write 0x2FE .half 0x1234)).arrives (.write 0x2FE .half 0x1234) ∧
    (at1 (.write 0x1FFFF .byte 9)).arrives (.write 0x1FFFF .byte 9) ∧
    (at1 (.write 0xBFC .word 9)).arrives (.write 0xBFC .word 9) ∧ 0xBFC % Width.word.bytes = 0 := by decide

theorem witness_BufferReadReturnsWhatWasWritten :
    { State.reset with inputs := [.write 0x100 .byte 7, .read 0x100 .byte] }.inputs =
      .write 0x100 .byte 7 :: .read 0x100 .byte :: [] ∧
    State.reset.pending = none ∧ 0x100 % Width.byte.bytes = 0 := by decide

theorem witness_BusyWritesAreDroppedAndSetOvr :
    (busyAt (.write 0x00C .word 0)).pending ≠ none ∧
    (busyAt (.write 0x00C .word 0)).arrives (.write 0x00C .word 0) ∧
    (busyAt (.write 0x1FFFF .byte 1)).arrives (.write 0x1FFFF .byte 1) ∧ 0x1FFFF % Width.byte.bytes = 0 ∧
    (busyAt (.write 0x004 .word 1)).arrives (.write 0x004 .word 1) ∧
    (busyAt (.write 0x008 .word 6)).arrives (.write 0x008 .word 6) ∧
    (busyAt (.write 0x3FF .byte 6)).arrives (.write 0x3FF .byte 6) ∧ 0x3FF % Width.byte.bytes = 0 ∧
    (at1 (.write 0x000 .word 6)).arrives (.write 0x000 .word 6) ∧ (at1 (.write 0x000 .word 6)).pending = none ∧
    (at1 (.write 0x300 .half 6)).arrives (.write 0x300 .half 6) ∧ 0x300 % Width.half.bytes = 0 ∧
    (busyAt (.write 0x7FF .byte 6)).arrives (.write 0x7FF .byte 6) := by decide

theorem witness_CtrlAndStatusWritesTakeEffectAtOnce :
    (at1 (.write 0x004 .word 1)).arrives (.write 0x004 .word 1) ∧
    (at1 (.write 0x008 .word 2)).arrives (.write 0x008 .word 2) ∧ (2 : Word).getLsbD 1 = true ∧
    (4 : Word).getLsbD 1 = false := by decide

theorem witness_CmdWriteIssuesTheCommand :
    ((at1 (.write 0x00C .word 5)).arrives (.write 0x00C .word 5) ∧ (at1 (.write 0x00C .word 5)).pending = none) ∧
    ((busyAt (.write 0x00C .word 5)).arrives (.write 0x00C .word 5) ∧
      (busyAt (.write 0x00C .word 5)).pending ≠ none) := by decide

theorem witness_ConfigRegistersHoldWhatIsWritten :
    (at1 (.write 0x018 .word 0x10003)).pending = none ∧
    (at1 (.write 0x018 .word 0x10003)).arrives (.write 0x018 .word 0x10003) ∧
    (at1 (.write 0x01C .word 3)).arrives (.write 0x01C .word 3) ∧
    (at1 (.write 0x020 .word 3)).arrives (.write 0x020 .word 3) ∧
    (at1 (.write 0x024 .word 3)).arrives (.write 0x024 .word 3) := by decide

theorem witness_BufferReadsAnswerTheirBytesUnlessBusy :
    ((at1 (.read 0x100 .byte)).arrives (.read 0x100 .byte) ∧ (at1 (.read 0x100 .byte)).pending = none ∧
      0x100 % Width.byte.bytes = 0) ∧
    ((busyAt (.read 0x1FFFC .word)).arrives (.read 0x1FFFC .word) ∧ (busyAt (.read 0x1FFFC .word)).pending ≠ none ∧
      0x1FFFC % Width.word.bytes = 0) ∧
    (busyAt (.read 0xBFC .word)).arrives (.read 0xBFC .word) ∧
    (busyAt (.read 0x3FE .half)).arrives (.read 0x3FE .half) := by decide

/-! ### Rules over all commands -/

theorem witness_SessionFollowsItsStateMachine :
    decode 0xFF000000 = .illegal (.opcode 0xFF) ∧ decode 0x20000001 = .illegal (.rsvdField 0x20) := by decide

theorem witness_StepKeepsTheMachineLegal : State.reset.Inv ∧ step State.reset = .next State.reset :=
  ⟨⟨⟨List.Pairwise.nil, fun _ h => absurd h List.not_mem_nil⟩, by decide,
    ⟨fun _ h => (nomatch h), fun h => absurd rfl h⟩,
    ⟨Nat.le_refl 0, fun h => absurd rfl h, (by decide), (by decide)⟩, by decide, fun h => absurd rfl h⟩, rfl⟩

theorem witness_PendingCommandIsServed :
    (busyWith 0x12030303 State.reset).pending = some 0x12030303 ∧
    (busyAt .rst).pending = some 0 ∧ .rst ∈ (busyAt .rst).inputs ∧
    (busyAt (.write 0x00C .word 5)).pending = some 0 ∧
    .rst ∉ (busyAt (.write 0x00C .word 5)).inputs ∧ .powerOn ∉ (busyAt (.write 0x00C .word 5)).inputs := by decide

theorem witness_RacingCmdWriteIsDroppedOrAccepted :
    (busyAt .completion).pending = some 0 ∧
    { busyAt .completion with inputs := [.write 0x00C .word 1, .completion] }.inputs =
      .write 0x00C .word 1 :: .completion :: [] ∧
    { busyAt .completion with inputs := [.completion, .write 0x00C .word 1] }.inputs =
      .completion :: .write 0x00C .word 1 :: [] := by decide

theorem witness_OnlyListedErrorsAreWritten :
    execute 0x02050000 State.reset = .next (nextOf (execute 0x02050000 State.reset)) :=
  eq_next_of_isNext (by decide)

theorem witness_ErrAndResultPersistUntilCompletion :
    (at1 (.write 0x008 .word 2)).arrives (.write 0x008 .word 2) ∧
    step (at1 (.write 0x008 .word 2)) = .next (nextOf (step (at1 (.write 0x008 .word 2)))) :=
  ⟨by decide, eq_next_of_isNext (by decide)⟩

/-! ### Field unit -/

theorem witness_FieldLawsHold : Config.legalPoly 0x11B = true ∧ Config.legalPoly 0x1F9 = true := by decide

theorem witness_InverseIsUniqueAndIsThePower254 : Config.legalPoly 0x11D = true ∧ (0xFF : Byte) ≠ 0 := by decide

theorem witness_GdivGivesTheQuotientOrDomainError :
    ((0 : Byte) = 0) ∧ (0xFF : Byte) ≠ 0 ∧ Config.legalPoly State.reset.poly = true := by decide

theorem witness_GinvGivesTheInverseOrDomainError :
    ((0 : Byte) = 0) ∧ (1 : Byte) ≠ 0 ∧ Config.legalPoly State.reset.poly = true := by decide

/-! ### Solver unit -/

theorem witness_HevalGivesTheHyperplaneForm : (0 : Byte) = 0 ∧ (1 : Byte) ≠ 0 := by decide

theorem witness_HevalAcceptsAShareRow :
    2 ≤ (2 : Byte).toNat ∧ (loaded [[0x11, 0xA4], [0x48, 0]] [] []).mem.mat 0 1 =
      gfMul 0x11B ((loaded [[0x11, 0xA4], [0x48, 0]] [] []).mem.mat 0 0) 0x48 ∧
    (loaded [[0x11, 0xA4], [0x48, 0]] [] []).mem.mat 1 0 = 0x48 ∧
    (∀ i, i < 2 → 1 ≤ i → (loaded [[0x11, 0xA4], [0x48, 0]] [] []).mem.mat 1 i = 0) := by decide +kernel

theorem witness_SolveChecksDimensionsInOrder :
    (1 : Byte) ≠ 2 ∧
    ((1 : Byte).toNat < (2 : Byte).toNat ∧ (loaded [] [] [2, 3]).mem.rowlen 1 ≠ 2 ∧
      ∀ j, j < 1 → (loaded [] [] [2, 3]).mem.rowlen j = 2) ∧
    ((∀ j, j < 2 → (loaded [] [] [2, 2]).mem.rowlen j = 2) ∧ (1 : Byte) ≠ 2) ∧
    (∀ j, j < 0 → State.reset.mem.rowlen j = 0) := by decide +kernel

/-- A 1 × 1 system with coefficient 7. -/
def system1 : State := loaded [[7]] [9] [1]

theorem nonsingular_system1 : Nonsingular system1.poly 1 system1.mem.mat := by
  intro x h i hi
  have h0 : gfMul 0x11B 7 (x 0) ^^^ 0 = 0 := by
    rw [show system1.poly = 0x11B from rfl] at h
    have := h 0 (by omega)
    have hm : system1.mem.mat 0 0 = 7 := by decide +kernel
    simpa [xorSum, hm] using this
  have key : ∀ v : Byte, gfMul 0x11B 7 v ^^^ 0 = 0 → v = 0 := by decide +kernel
  rw [show i = 0 by omega]
  exact key _ h0

theorem witness_SolveFindsTheUniqueSolution :
    Config.legalPoly system1.poly = true ∧ (1 : Byte) ≠ 0 ∧
    (∀ r, r < (1 : Byte).toNat → system1.mem.rowlen r = 1) ∧ Nonsingular system1.poly (1 : Byte).toNat system1.mem.mat :=
  ⟨by decide, by decide, by decide +kernel, nonsingular_system1⟩

/-- The system of V-S3, with coefficient 0. -/
def system0 : State := loaded [[0]] [5] [1]

theorem singular_system0 : ¬ Nonsingular system0.poly 1 system0.mem.mat := by
  intro h
  have hm : system0.mem.mat 0 0 = 0 := by decide +kernel
  have hs : Solves system0.poly 1 system0.mem.mat (fun _ => 0) (fun _ => 1) := by
    intro r hr
    rw [show r = 0 by omega]
    simp only [xorSum, List.range_one, List.map_cons, List.map_nil, List.foldr_cons, List.foldr_nil, hm]
    decide +kernel
  exact absurd (h _ hs 0 (by omega)) (by decide)

theorem witness_SolveRaisesSingularExactlyWhenSingular :
    (Config.legalPoly system0.poly = true ∧ (∀ r, r < (1 : Byte).toNat → system0.mem.rowlen r = 1) ∧
      ¬ Nonsingular system0.poly (1 : Byte).toNat system0.mem.mat) ∧
    Nonsingular system1.poly (1 : Byte).toNat system1.mem.mat :=
  ⟨⟨by decide, by decide +kernel, singular_system0⟩, nonsingular_system1⟩

theorem witness_SingularSolveStopsInReducedForm :
    ∃ t, exec (.solve 1 1 1) system0 = .next t ∧ t.err.ecode = 3 :=
  ⟨_, eq_next_of_isNext (by decide +kernel), by decide +kernel⟩

/-! ### Coordinator -/

theorem witness_SessionCommandsRefuseTheWrongState :
    (inSession .split 0 2 3 2 State.reset).sess ≠ .idle ∧ State.reset.sess ≠ .split ∧
    State.reset.sess ≠ .combine := by decide

/-- A state with CFG_N, CFG_K and CFG_L. -/
def configured (n k : Half) (l : Word) : State := { State.reset with cfgN := n, cfgK := k, cfgL := l }

theorem witness_SplitInitValidatesThenOpensASession :
    (inSession .combine 0 2 3 0 State.reset).sess ≠ .idle ∧ (configured 0 0 0).sess = .idle ∧
    (configured 9 1 5).cfgK.toNat < 2 ∧ 255 < (configured 9 256 5).cfgK.toNat ∧
    (2 ≤ (configured 256 255 5).cfgK.toNat ∧ (configured 256 255 5).cfgK.toNat ≤ 255 ∧
      255 < (configured 256 255 5).cfgN.toNat) ∧
    (2 ≤ (configured 2 3 5).cfgK.toNat ∧ (configured 2 3 5).cfgN.toNat < (configured 2 3 5).cfgK.toNat) ∧
    (2 ≤ (configured 2 2 0).cfgK.toNat ∧ (configured 2 2 0).cfgK.toNat ≤ (configured 2 2 0).cfgN.toNat ∧
      (configured 2 2 0).cfgN.toNat ≤ 255 ∧ (configured 2 2 0).cfgL = 0) ∧
    ((configured 255 255 1).cfgN.toNat ≤ 255 ∧ (configured 255 255 1).cfgL ≠ 0) := by decide

theorem p3_legal : p3.SessionLegal := ⟨by decide, by decide, by decide, by decide⟩

theorem witness_SplitByteGeneratesTheShareRows :
    p3.sess = .split ∧ p3.SessionLegal ∧
    ∀ j, j < p3.sessNP.toNat * (p3.sessKL.toNat - 1) → ∃ b, p3.answer j = .byte b := by
  refine ⟨rfl, p3_legal, fun j hj => ?_⟩
  have : j < 3 := hj
  interval_cases j
  exacts [⟨_, rfl⟩, ⟨_, rfl⟩, ⟨_, rfl⟩]

theorem witness_FailedDrawClearsTheOutputAndAborts :
    failing.sess = .split ∧ failing.SessionLegal ∧ (1 : Byte).toNat < failing.sessNP.toNat ∧
    (1 : Byte).toNat < failing.sessKL.toNat - 1 ∧ failing.answer 3 = .fail ∧
    ∀ j', j' < 3 → ∃ b, failing.answer j' = .byte b := by
  refine ⟨rfl, ⟨by decide, by decide, by decide, by decide⟩, by decide, by decide, rfl, fun j hj => ?_⟩
  interval_cases j
  exacts [⟨_, rfl⟩, ⟨_, rfl⟩, ⟨_, rfl⟩]

theorem witness_CombineInitValidatesThenOpensASession :
    (inSession .split 0 2 3 2 State.reset).sess ≠ .idle ∧ (outerLens 3 2 2 3).sess = .idle ∧
    (outerLens 0 2 2 2).cfgP.toNat = 0 ∧ (outerLens 1 2 2 2).cfgP.toNat = 1 ∧ 255 < (outerLens 256 2 2 2).cfgP.toNat ∧
    ((2 : Byte).toNat < (outerLens 3 2 2 3).cfgP.toNat ∧
      (outerLens 3 2 2 3).mem.olen 2 ≠ (outerLens 3 2 2 3).mem.olen 0 ∧
      ∀ q, q < 2 → (outerLens 3 2 2 3).mem.olen q = (outerLens 3 2 2 3).mem.olen 0) ∧
    (2 ≤ (outerLens 2 5 5 0).cfgP.toNat ∧
      ∀ q, q < (outerLens 2 5 5 0).cfgP.toNat → (outerLens 2 5 5 0).mem.olen q = (outerLens 2 5 5 0).mem.olen 0) := by
  decide +kernel

/-- A COMBINE session of `np` parties over loaded rows. -/
def combining (np : Byte) (rows : List (List Byte)) (lens : List Byte) : State :=
  inSession .combine 0 2 np 0 (loaded rows [] lens)

theorem witness_CombineByteChecksTheSharesFirst :
    (combining 3 [] [3, 3, 2]).sess = .combine ∧
    ((2 : Byte).toNat < (combining 3 [] [3, 3, 2]).sessNP.toNat ∧
      (combining 3 [] [3, 3, 2]).mem.rowlen 2 ≠ (combining 3 [] [3, 3, 2]).mem.rowlen 0 ∧
      ∀ q, q < 2 → (combining 3 [] [3, 3, 2]).mem.rowlen q = (combining 3 [] [3, 3, 2]).mem.rowlen 0) ∧
    ((∀ q, q < 2 → (combining 2 [] [3, 3]).mem.rowlen q = (combining 2 [] [3, 3]).mem.rowlen 0) ∧
      2 < ((combining 2 [] [3, 3]).mem.rowlen 0).toNat) ∧
    ((∀ q, q < 2 → (combining 2 [] [0, 0]).mem.rowlen q = (combining 2 [] [0, 0]).mem.rowlen 0) ∧
      (combining 2 [] [0, 0]).mem.rowlen 0 = 0) := by decide +kernel

/-- The session of V-C16. -/
def combining1 : State := combining 2 [[0x5A], [0x77]] [1, 1]

theorem witness_CombineByteSolvesTheShareSystem :
    Config.legalPoly combining1.poly = true ∧ combining1.sess = .combine ∧ (1 : Byte) ≠ 0 ∧
    (1 : Byte).toNat ≤ combining1.sessNP.toNat ∧
    (∀ p, p < combining1.sessNP.toNat → combining1.mem.rowlen p = 1) ∧
    Nonsingular combining1.poly (1 : Byte).toNat (shareMatrix combining1.mem (1 : Byte).toNat) := by
  refine ⟨by decide, rfl, by decide, by decide, by decide +kernel, fun x h i hi => ?_⟩
  have hi' : i < 1 := hi
  have h0 : gfMul 0x11B 1 (x 0) ^^^ 0 = 0 := by
    rw [show combining1.poly = 0x11B from rfl] at h
    have := h 0 (by decide)
    simpa [xorSum, shareMatrix] using this
  have key : ∀ v : Byte, gfMul 0x11B 1 v ^^^ 0 = 0 → v = 0 := by decide +kernel
  rw [show i = 0 by omega]
  exact key _ h0

/-- The session of V-C17: one party's row twice. -/
def twice : State := combining 2 [[0x11, 0xA4], [0x11, 0xA4]] [2, 2]

theorem witness_SingularCombineByteAborts :
    Config.legalPoly twice.poly = true ∧ twice.sess = .combine ∧ (2 : Byte) ≠ 0 ∧
    (2 : Byte).toNat ≤ twice.sessNP.toNat ∧ (∀ p, p < twice.sessNP.toNat → twice.mem.rowlen p = 2) ∧
    ¬ Nonsingular twice.poly (2 : Byte).toNat (shareMatrix twice.mem (2 : Byte).toNat) := by
  refine ⟨by decide, rfl, by decide, by decide, by decide +kernel, fun h => ?_⟩
  have hs : Solves twice.poly 2 (shareMatrix twice.mem 2) (fun _ => 0) (fun i => if i = 0 then 1 else 0x11) := by
    intro r hr
    interval_cases r <;> decide +kernel
  exact absurd (h _ hs 0 (by decide)) (by decide)

/-- The session of R179's example: the rows of parties 2 and 0 of program P3. -/
def rows20 : State := combining 2 [[0x33, 0xF7], [0x11, 0xA4]] [2, 2]

theorem nonsingular_rows20 : Nonsingular rows20.poly 2 (shareMatrix rows20.mem 2) := by
  intro x h i hi
  have one : ∀ v : Byte, gfMul 0x11B#9 1#8 v = v := by decide +kernel
  have key : ∀ v : Byte, gfMul 0x11B 0x33 v = gfMul 0x11B 0x11 v → v = 0 := by decide +kernel
  have hm : rows20.mem.mat 0 0 = 0x33 ∧ rows20.mem.mat 1 0 = 0x11 := by decide +kernel
  rw [show rows20.poly = 0x11B from rfl] at h
  have h0 : gfMul 0x11B 0x33 (x 0) = x 1 := by
    simpa [xorSum, shareMatrix, hm, one, List.range_succ, BitVec.xor_eq_zero_iff] using h 0 (by omega)
  have h1 : gfMul 0x11B 0x11 (x 0) = x 1 := by
    simpa [xorSum, shareMatrix, hm, one, List.range_succ, BitVec.xor_eq_zero_iff] using h 1 (by omega)
  have hx : x 0 = 0 := key _ (h0.trans h1.symm)
  obtain rfl | rfl : i = 0 ∨ i = 1 := by omega
  · exact hx
  · rw [← h0, hx]; decide

/-- A nonsingular case, and the singular one of `witness_SingularCombineByteAborts`. -/
theorem witness_CombineByteRecoversTheSplitByte :
    (2 ≤ (2 : Byte).toNat ∧ (2 : Byte).toNat ≤ rows20.sessNP.toNat ∧ Config.legalPoly rows20.poly = true ∧
      rows20.sess = .combine ∧
      (∀ p, p < rows20.sessNP.toNat → rows20.mem.rowlen p = 2 ∧
        rows20.mem.mat p ((2 : Byte).toNat - 1) = gfMul rows20.poly (rows20.mem.mat p 0) 0x48) ∧
      Nonsingular rows20.poly (2 : Byte).toNat (shareMatrix rows20.mem (2 : Byte).toNat)) ∧
    ((2 : Byte).toNat ≤ twice.sessNP.toNat ∧ Config.legalPoly twice.poly = true ∧ twice.sess = .combine ∧
      (∀ p, p < twice.sessNP.toNat → twice.mem.rowlen p = 2 ∧
        twice.mem.mat p ((2 : Byte).toNat - 1) = gfMul twice.poly (twice.mem.mat p 0) 0x48) ∧
      ¬ Nonsingular twice.poly (2 : Byte).toNat (shareMatrix twice.mem (2 : Byte).toNat)) :=
  ⟨⟨by decide, by decide, by decide, rfl, by decide +kernel, nonsingular_rows20⟩,
    by decide, by decide, rfl, by decide +kernel, witness_SingularCombineByteAborts.2.2.2.2.2⟩

theorem witness_CombineByteUsesTheFirstRowsOnly :
    combining1.SessionLegal ∧
    (∀ p, p < combining1.sessNP.toNat → (combining1.mem.setMat 1 0 0x99).rowlen p = combining1.mem.rowlen p) ∧
    (∀ r, r < (combining1.mem.rowlen 0).toNat → ∀ c, c < (combining1.mem.rowlen 0).toNat →
      (combining1.mem.setMat 1 0 0x99).mat r c = combining1.mem.mat r c) :=
  ⟨⟨by decide, by decide, by decide, by decide⟩, by decide +kernel, by decide +kernel⟩

theorem witness_OneShareRowGivesTheSecretAway :
    Config.legalPoly p3.poly = true ∧ p3.sess = .split ∧ p3.SessionLegal ∧
    ∃ t, exec (.splitByte 0x48) p3 = .next t ∧ t.err.ecode = 0 ∧ 2 < p3.sessNP.toNat ∧ t.mem.mat 2 0 ≠ 0 :=
  ⟨by decide, rfl, p3_legal, _, eq_next_of_isNext (by decide +kernel), by decide +kernel, by decide, by decide +kernel⟩

theorem witness_TwoRowSystemIsSingularExactlyOnEqualCoefficients :
    Config.legalPoly twice.poly = true ∧ twice.sess = .combine ∧ 2 ≤ twice.sessNP.toNat ∧
    ∀ p, p < twice.sessNP.toNat → twice.mem.rowlen p = 2 := by decide +kernel

/-! ### The host's protocols -/

/-- The value and the state a protocol returns. -/
def HostOk {α : Type} (e : HostEnd α) (x : α) : Prop := ∃ t, e = .ok x t

theorem hostOk_of {α : Type} [DecidableEq α] {e : HostEnd α} {x : α}
    (h : (match e with | .ok y _ => decide (y = x) | _ => false) = true) : HostOk e x := by
  cases e with
  | ok y t => exact ⟨t, by simp at h; rw [h]⟩
  | failed _ _ => simp at h
  | stopped => simp at h

/-- A block whose random source answers two bytes of P3. -/
def splitting : State := { State.reset with rng := [.byte 0x11, .byte 0x22] }

theorem witness_SplitSharesHaveTheStatedShape :
    HostOk (hostSplit [0x48] 2 2 splitting) [[[0x11, 0xA4]], [[0x22, 0x53]]] :=
  hostOk_of (by decide +kernel)

theorem witness_CombinedSharesGiveTheSecretBack :
    Config.legalPoly splitting.poly = true ∧ splitting.pending = none ∧
    HostOk (hostSplit [0x48] 2 2 splitting) [[[0x11, 0xA4]], [[0x22, 0x53]]] ∧
    (∀ sh ∈ ([[[0x22, 0x53]], [[0x11, 0xA4]]] : List Share), sh ∈ ([[[0x11, 0xA4]], [[0x22, 0x53]]] : List Share)) ∧
    State.reset.poly = splitting.poly ∧ State.reset.pending = none ∧
    HostOk (hostCombine [[[0x22, 0x53]], [[0x11, 0xA4]]] State.reset) [0x48] :=
  ⟨by decide, rfl, hostOk_of (by decide +kernel), by decide, rfl, rfl, hostOk_of (by decide +kernel)⟩

end Sys2Proof.Tests
end

section
/-! PROOFS. What a command can do, said once: the buffers it writes (20_memory.md R64, R73), the ends it can
come to (40_control.md R111, 60_exceptions.md R212) and the session it leaves (43_codec.md R170). -/

namespace Sys2Proof.Machine

/-! ### Writes to MAT, CONST and ROWLEN -/

/-- What writes to MAT, CONST and ROWLEN alone keep: the canonical form and every byte of OLEN. -/
structure Memory.ByteBufWrites (m m' : Memory) : Prop where
  wf : m.wf → m'.wf
  olen : ∀ a, isOlenAddr a = true → m'.read a = m.read a

theorem Memory.ByteBufWrites.refl (m : Memory) : m.ByteBufWrites m := ⟨id, fun _ _ => rfl⟩

theorem Memory.ByteBufWrites.trans {m m' m'' : Memory} (h : m.ByteBufWrites m') (h' : m'.ByteBufWrites m'') :
    m.ByteBufWrites m'' := ⟨h'.wf ∘ h.wf, fun a ha => (h'.olen a ha).trans (h.olen a ha)⟩

theorem Memory.ByteBufWrites.write (m : Memory) {a : Nat} (v : Byte) (ha : isByteBufAddr a = true) :
    m.ByteBufWrites (m.write a v) where
  wf h := Memory.write_wf h (by rw [isBufAddr, ha, Bool.true_or]) v
  olen b hb := Memory.read_write_other m v fun hba => by
    rw [isByteBufAddr_iff] at ha
    rw [isOlenAddr_iff] at hb
    omega

theorem Memory.ByteBufWrites.setMat (m : Memory) {r c : Nat} (v : Byte) (hr : r < 256) (hc : c < 256) :
    m.ByteBufWrites (m.setMat r c v) :=
  .write m v (by rw [isByteBufAddr_iff, matAddr]; omega)

theorem Memory.ByteBufWrites.setConst (m : Memory) {i : Nat} (v : Byte) (hi : i < 256) :
    m.ByteBufWrites (m.setConst i v) :=
  .write m v (by rw [isByteBufAddr_iff, constAddr]; omega)

theorem Memory.ByteBufWrites.setRowlen (m : Memory) {r : Nat} (v : Byte) (hr : r < 256) :
    m.ByteBufWrites (m.setRowlen r v) :=
  .write m v (by rw [isByteBufAddr_iff, rowlenAddr]; omega)

theorem Memory.ByteBufWrites.loop {n : Nat} {f : Nat → Memory → Memory} (m : Memory)
    (hf : ∀ i (x : Memory), i < n → x.ByteBufWrites (f i x)) : m.ByteBufWrites (forUp n f m) :=
  forUp_invariant (P := fun _ (x : Memory) => m.ByteBufWrites x) (.refl m)
    fun i x hi hx => hx.trans (hf i x hi)

theorem solveCore_byteBufWrites (poly : Poly) (d r c : Byte) (m : Memory) :
    m.ByteBufWrites (solveCore poly d r c m).mem where
  wf := solveCore_wf poly d r c
  olen a ha := by
    rw [isOlenAddr_iff] at ha
    refine solveCore_sameOutside poly d r c m a (fun r c _ _ => ?_) fun i hi => ?_
    · rw [matAddr]; omega
    · rw [constAddr]; omega

theorem buildSystem_byteBufWrites {d : Nat} (m : Memory) (hd : d ≤ 256) : m.ByteBufWrites (buildSystem d m) :=
  .loop m fun _ x hp =>
    have hp := hp.trans_le hd
    (Memory.ByteBufWrites.setConst x _ hp).trans (.setMat _ _ hp (by omega))

theorem clearRows_byteBufWrites {n k : Nat} (m : Memory) (hn : n ≤ 256) (hk : k ≤ 256) :
    m.ByteBufWrites (clearRows n k m) :=
  .loop m fun _ x hq =>
    have hq := hq.trans_le hn
    (Memory.ByteBufWrites.loop x fun _ y hc => .setMat y _ hq (hc.trans_le hk)).trans (.setRowlen _ _ hq)

theorem closeRow_byteBufWrites {k p : Nat} (poly : Poly) (v : Byte) (m : Memory) (hp : p < 256) (hk : k ≤ 256) :
    m.ByteBufWrites (closeRow poly k v p m) :=
  (Memory.ByteBufWrites.setMat m _ hp (by omega)).trans (.setRowlen _ _ hp)

/-! ### The state before a command's end -/

/-- The states that command `i` can have made of `s` before its end: MAT, CONST and ROWLEN written, and for
SPLIT_BYTE alone the random source asked (R176). -/
inductive State.WorkedBy (i : Instr) (s : State) : State → Prop where
  | mk (m : Memory) (r : List RngAnswer) (d : Nat) (hm : s.mem.ByteBufWrites m)
      (hr : (∀ v, i ≠ .splitByte v) → r = s.rng ∧ d = s.draws) :
      WorkedBy i s { s with mem := m, rng := r, draws := d }

theorem State.WorkedBy.refl (i : Instr) (s : State) : s.WorkedBy i s :=
  .mk _ _ _ (.refl s.mem) fun _ => ⟨rfl, rfl⟩

theorem State.WorkedBy.setMem {i : Instr} {s t : State} (h : s.WorkedBy i t) {m : Memory}
    (hm : t.mem.ByteBufWrites m) : s.WorkedBy i (t.setMem m) := by
  obtain ⟨m', r, d, hm', hr⟩ := h
  exact .mk m r d (hm'.trans hm) hr

theorem State.WorkedBy.drawn {v : Byte} {s t : State} (h : s.WorkedBy (.splitByte v) t) :
    s.WorkedBy (.splitByte v) t.drawn := by
  obtain ⟨m, r, d, hm, -⟩ := h
  exact .mk m r.tail (d + 1) hm fun hv => absurd rfl (hv v)

/-- The state at the end of SPLIT_BYTE's loops. -/
def SplitEnd.state : SplitEnd → State
  | .rows s => s
  | .failed _ _ s => s

theorem drawCoeffs_workedBy {v : Byte} {s : State} {p : Nat} (hp : p < 256) (n : Nat) :
    ∀ (i : Nat) (t : State), i + n ≤ 256 → s.WorkedBy (.splitByte v) t →
      s.WorkedBy (.splitByte v) (drawCoeffs p i n t).state := by
  induction n with
  | zero => exact fun i t _ h => h
  | succ n ih =>
    intro i t hi h
    rw [drawCoeffs]
    split
    · exact h.drawn
    · exact ih _ _ (by omega) (h.drawn.setMem (.setMat _ _ hp (by omega)))

theorem splitRows_workedBy {v : Byte} {s : State} {k : Nat} (hk : k ≤ 256) (n : Nat) :
    ∀ (p : Nat) (t : State), p + n ≤ 256 → s.WorkedBy (.splitByte v) t →
      s.WorkedBy (.splitByte v) (splitRows k v p n t).state := by
  induction n with
  | zero => exact fun p t _ h => h
  | succ n ih =>
    intro p t hp h
    have hrow := drawCoeffs_workedBy (by omega) (k - 1) 0 t (by omega) h (p := p)
    rw [splitRows]
    split
    · next heq => rwa [heq] at hrow
    · next heq =>
      rw [heq] at hrow
      exact ih _ _ (by omega) (hrow.setMem (closeRow_byteBufWrites _ _ _ (by omega) hk))

/-! ### The ends of a command -/

/-- A session opened: its bounds latched and J at 0 (R171, R178). -/
def State.opened (np kl : Byte) (l : Word) (x : Sess) (s : State) : State :=
  { s with sessNP := np, sessKL := kl, sessL := l, sessJ := 0, sess := x }

/-- The commands whose success changes J, L, NP or KL (R33 to R35); opcode 0x21 is SPLIT_BYTE (R93). -/
def MovesCounters (i : Instr) : Prop :=
  i = .splitInit ∨ i = .combineInit ∨ i = .combineByte ∨ i.opcode = 0x21

/-- The states in which command `i` can leave `s`. -/
inductive CommandEnd (i : Instr) (s : State) : State → Prop where
  /-- an error end; the session stays or closes -/
  | error {u : State} {x : Sess} (c : Cause) (hu : s.WorkedBy i u) (hx : x = s.sess ∨ x = .idle) :
      CommandEnd i s ((u.setSess x).raise c)
  /-- success of a command that leaves the counters; the session stays or closes -/
  | value {u : State} {x : Sess} (v : Byte) (hu : s.WorkedBy i u) (hx : x = s.sess ∨ x = .idle)
      (hi : ¬ MovesCounters i) : CommandEnd i s ((u.setSess x).complete v)
  /-- SPLIT_INIT opens a session (R171) -/
  | splitOpened (hi : i = .splitInit) (hc : splitCheck s.cfgN s.cfgK s.cfgL = none) :
      CommandEnd i s ((s.opened (s.cfgN.setWidth 8) (s.cfgK.setWidth 8) s.cfgL .split).complete 0)
  /-- COMBINE_INIT opens a session, or is an empty Combine (R178) -/
  | combineOpened (hi : i = .combineInit) (hc : combineCheck s.mem s.cfgP = none) :
      CommandEnd i s ((s.opened (s.cfgP.setWidth 8) 0 (s.mem.olen 0)
        (if s.mem.olen 0 = 0 then .idle else .combine)).complete 0)
  /-- a byte of an open session done (R173, R179) -/
  | advanced {u : State} (v : Byte) (hu : s.WorkedBy i u) (hs : s.sess ≠ .idle)
      (hi : i = .combineByte ∨ i.opcode = 0x21) : CommandEnd i s (u.advance.complete v)

theorem CommandEnd.refused {i : Instr} {s : State} (c : Cause) : CommandEnd i s (s.raise c) :=
  .error c (.refl i s) (.inl rfl)

theorem CommandEnd.computed {i : Instr} {s : State} (v : Byte)
    (hi : ¬ MovesCounters i := by simp [MovesCounters, Instr.opcode]) : CommandEnd i s (s.complete v) :=
  .value v (.refl i s) (.inl rfl) hi

theorem execSolve_end (d r c : Byte) (s : State) :
    ∃ t, execSolve d r c s = .next t ∧ CommandEnd (.solve d r c) s t := by
  have hw : s.WorkedBy (.solve d r c) (s.setMem (solveCore s.poly d r c s.mem).mem) :=
    (State.WorkedBy.refl _ s).setMem (solveCore_byteBufWrites _ _ _ _ _)
  rw [execSolve]
  split
  case h_1 v m heq =>
    rw [heq] at hw
    exact ⟨_, rfl, .value (x := s.sess) v hw (.inl rfl) (by simp [MovesCounters, Instr.opcode])⟩
  case h_2 e m heq =>
    rw [heq] at hw
    exact ⟨_, rfl, .error (x := s.sess) e hw (.inl rfl)⟩

theorem execSplitInit_end (s : State) : ∃ t, execSplitInit s = .next t ∧ CommandEnd .splitInit s t := by
  rw [execSplitInit]
  split_ifs
  · exact ⟨_, rfl, .refused _⟩
  split
  · exact ⟨_, rfl, .refused _⟩
  · next hc => exact ⟨_, rfl, .splitOpened rfl hc⟩

theorem execSplitByte_end (v : Byte) (s : State) :
    ∃ t, execSplitByte v s = .next t ∧ CommandEnd (.splitByte v) s t := by
  have hw := splitRows_workedBy (k := s.sessKL.toNat) (by omega) s.sessNP.toNat 0 s (by omega)
    (State.WorkedBy.refl (.splitByte v) s)
  rw [execSplitByte]
  split_ifs with hs
  · exact ⟨_, rfl, .refused _⟩
  split
  case h_1 p i t heq =>
    rw [heq] at hw
    exact ⟨_, rfl, .error _ (hw.setMem (clearRows_byteBufWrites _ (by omega) (by omega))) (.inr rfl)⟩
  case h_2 t heq =>
    rw [heq] at hw
    exact ⟨_, rfl, .advanced 0 hw (by rw [not_not.mp hs]; decide) (.inr rfl)⟩

theorem execCombineInit_end (s : State) : ∃ t, execCombineInit s = .next t ∧ CommandEnd .combineInit s t := by
  rw [execCombineInit]
  by_cases hs : s.sess ≠ .idle
  · exact ⟨_, if_pos hs, .refused _⟩
  rw [if_neg hs]
  split
  · exact ⟨_, rfl, .refused _⟩
  · next hc => exact ⟨_, rfl, .combineOpened rfl hc⟩

theorem execCombineByte_end (s : State) : ∃ t, execCombineByte s = .next t ∧ CommandEnd .combineByte s t := by
  have hw (d : Byte) : s.WorkedBy .combineByte
      (s.setMem (solveCore s.poly d d d (buildSystem d.toNat s.mem)).mem) :=
    (State.WorkedBy.refl _ s).setMem
      ((buildSystem_byteBufWrites s.mem (by omega)).trans (solveCore_byteBufWrites _ _ _ _ _))
  rw [execCombineByte]
  split_ifs with hs
  · exact ⟨_, rfl, .refused _⟩
  split
  · exact ⟨_, rfl, .error _ (.refl _ s) (.inr rfl)⟩
  specialize hw (s.mem.rowlen 0)
  dsimp only
  split
  case h_1 e m heq =>
    rw [heq] at hw
    exact ⟨_, rfl, .error e hw (.inr rfl)⟩
  case h_2 v m heq =>
    rw [heq] at hw
    exact ⟨_, rfl, .advanced v hw (by rw [not_not.mp hs]; decide) (.inl rfl)⟩

/-- Every command, in every state, comes to one of the ends above. -/
theorem exec_end (i : Instr) (s : State) : ∃ t, exec i s = .next t ∧ CommandEnd i s t := by
  cases i with
  | nop => exact ⟨_, rfl, .computed _⟩
  | gmul a b => exact ⟨_, rfl, .computed _⟩
  | gdiv a b =>
    rw [exec, execGdiv]
    split_ifs
    · exact ⟨_, rfl, .refused _⟩
    · exact ⟨_, rfl, .computed _⟩
  | ginv x =>
    rw [exec, execGinv]
    split_ifs
    · exact ⟨_, rfl, .refused _⟩
    · exact ⟨_, rfl, .computed _⟩
  | eval ra rb n => exact ⟨_, rfl, .computed _⟩
  | heval ra rb n => exact ⟨_, rfl, .computed _⟩
  | solve d r c => exact execSolve_end d r c s
  | splitInit => exact execSplitInit_end s
  | splitByte v => exact execSplitByte_end v s
  | combineInit => exact execCombineInit_end s
  | combineByte => exact execCombineByte_end s
  | abort => exact ⟨_, rfl, .value 0 (.refl _ s) (.inr rfl) (by simp [MovesCounters, Instr.opcode])⟩

/-- The end of any issued word: E_ILLEGAL, or the end of the command it decodes to (R94, R112). -/
theorem execute_end (w : Word) (s : State) :
    ∃ t, execute w s = .next t ∧ ((∃ c, t = s.raise c) ∨ ∃ i, decode w = .instr i ∧ CommandEnd i s t) := by
  rw [execute]
  split
  · next i hi =>
    obtain ⟨t, ht, h⟩ := exec_end i s
    exact ⟨t, ht, .inr ⟨i, hi, h⟩⟩
  · exact ⟨_, rfl, .inl ⟨_, rfl⟩⟩

/-! ### What the ends have in common -/

/-- The fields a command's end can change besides MAT, CONST, ROWLEN and the random source. -/
theorem CommandEnd.shape {i : Instr} {s t : State} (h : CommandEnd i s t) : ∃ u, s.WorkedBy i u ∧
    t = { u with done := t.done, result := t.result, err := t.err, sess := t.sess, sessJ := t.sessJ,
                 sessL := t.sessL, sessNP := t.sessNP, sessKL := t.sessKL, pending := t.pending } := by
  cases h with
  | error c hu _ => exact ⟨_, hu, rfl⟩
  | value v hu _ _ => exact ⟨_, hu, rfl⟩
  | splitOpened _ _ => exact ⟨s, .refl i s, rfl⟩
  | combineOpened _ _ => exact ⟨s, .refl i s, rfl⟩
  | advanced v hu _ _ => exact ⟨_, hu, rfl⟩

@[simp] theorem Cause.err_ecode_ne_zero (c : Cause) : c.err.ecode ≠ 0 := by
  cases c <;> simp [Cause.err]

/-- Every cause's ERR value is in the table of R211. -/
@[simp] theorem Cause.err_listed (c : Cause) : c.err.listed = true := by
  cases c <;> rfl

/-- The limits SPLIT_INIT has checked (R171). -/
theorem splitCheck_eq_none {n k : Half} {l : Word} (h : splitCheck n k l = none) :
    2 ≤ k.toNat ∧ k.toNat ≤ n.toNat ∧ n.toNat ≤ 255 ∧ l ≠ 0 := by
  simp only [splitCheck] at h
  split_ifs at h with h1 h2 h3 h4 h5
  exact ⟨by omega, by omega, by omega, h5⟩

/-- The limits COMBINE_INIT has checked on CFG_P (R178). -/
theorem combineCheck_eq_none {m : Memory} {p : Half} (h : combineCheck m p = none) :
    2 ≤ p.toNat ∧ p.toNat ≤ 255 := by
  simp only [combineCheck] at h
  split_ifs at h with h0 h1 h2
  have : p.toNat ≠ 0 := fun h => h0 (BitVec.eq_of_toNat_eq h)
  have : p.toNat ≠ 1 := fun h => h1 (BitVec.eq_of_toNat_eq h)
  omega

theorem setWidth_eight_toNat {n : Half} (h : n.toNat ≤ 255) : (n.setWidth 8).toNat = n.toNat := by
  rw [BitVec.toNat_setWidth, Nat.mod_eq_of_lt (by omega)]

/-! ### The session's bounds -/

theorem State.SessionLegal.of_idle {s : State} (hi : s.sess = .idle) (hj : s.sessJ.toNat ≤ s.sessL.toNat) :
    s.SessionLegal where
  progress := hj
  unfinished h := absurd hi h
  split h := by simp [hi] at h
  combine h := by simp [hi] at h

/-- The session stays legal when it stays or closes. -/
theorem State.SessionLegal.setSess {s : State} (h : s.SessionLegal) {x : Sess} (hx : x = s.sess ∨ x = .idle) :
    (s.setSess x).SessionLegal := by
  rcases hx with rfl | rfl
  · exact h
  · exact .of_idle rfl h.progress

/-- One more byte of an open session keeps J within L, and closes the session when they meet. -/
theorem State.SessionLegal.advance {s : State} (h : s.SessionLegal) (hs : s.sess ≠ .idle) :
    s.advance.SessionLegal := by
  have hlt := h.unfinished hs
  have hJ : s.advance.sessJ.toNat = s.sessJ.toNat + 1 :=
    BitVec.toNat_add_of_lt (Nat.lt_of_le_of_lt hlt s.sessL.isLt)
  have hprogress : s.advance.sessJ.toNat ≤ s.advance.sessL.toNat := hJ ▸ hlt
  by_cases hend : s.sessJ + 1 = s.sessL
  · exact .of_idle (if_pos hend) hprogress
  · have hsess : s.advance.sess = s.sess := if_neg hend
    refine ⟨hprogress, fun _ => lt_of_le_of_ne hprogress fun heq => hend (BitVec.eq_of_toNat_eq heq), ?_, ?_⟩
    · rw [hsess]; exact h.split
    · rw [hsess]; exact h.combine

theorem State.SessionLegal.splitOpened {s : State} (hc : splitCheck s.cfgN s.cfgK s.cfgL = none) :
    (s.opened (s.cfgN.setWidth 8) (s.cfgK.setWidth 8) s.cfgL .split).SessionLegal := by
  obtain ⟨hk, hkn, hn, hl⟩ := splitCheck_eq_none hc
  refine ⟨Nat.zero_le _, fun _ => Nat.pos_of_ne_zero fun h => hl (BitVec.eq_of_toNat_eq h), fun _ => ?_, nofun⟩
  simp only [State.opened, setWidth_eight_toNat hn, setWidth_eight_toNat (hkn.trans hn)]
  exact ⟨hk, hkn⟩

theorem State.SessionLegal.combineOpened {s : State} (hc : combineCheck s.mem s.cfgP = none) :
    (s.opened (s.cfgP.setWidth 8) 0 (s.mem.olen 0)
      (if s.mem.olen 0 = 0 then .idle else .combine)).SessionLegal := by
  obtain ⟨hp, hp'⟩ := combineCheck_eq_none hc
  by_cases hl : s.mem.olen 0 = 0
  · exact .of_idle (if_pos hl) (Nat.zero_le _)
  · rw [if_neg hl]
    refine ⟨Nat.zero_le _, fun _ => Nat.pos_of_ne_zero fun h => hl (BitVec.eq_of_toNat_eq h), nofun,
      fun _ => ⟨?_, rfl⟩⟩
    rw [State.opened, setWidth_eight_toNat hp']
    exact hp

/-- The session's bounds speak of the session's own fields only. -/
theorem State.SessionLegal.inState {s : State} (h : s.SessionLegal) (t : State) :
    State.SessionLegal { t with sess := s.sess, sessJ := s.sessJ, sessL := s.sessL, sessNP := s.sessNP,
                                sessKL := s.sessKL } :=
  ⟨h.progress, h.unfinished, h.split, h.combine⟩

/-! ### Each operation keeps the invariant -/

/-- The invariant does not speak of CTRL, OVR, the CFG registers, the random source or the port. -/
theorem State.Inv.withHostFields {s : State} (h : s.Inv) {ie ovr : Bool} {n k p : Half} {l : Word}
    {r : List RngAnswer} {d b : Nat} {es : List Event} {a : Option BusReply} :
    State.Inv { s with ie := ie, ovr := ovr, cfgN := n, cfgK := k, cfgP := p, cfgL := l, rng := r, draws := d,
                       busyReads := b, inputs := es, reply := a } where
  memory := h.memory
  poly := h.poly
  pending := ⟨h.pending.word, h.pending.notDone⟩
  session := ⟨h.session.progress, h.session.unfinished, h.session.split, h.session.combine⟩
  errListed := h.errListed
  resultOnError := h.resultOnError

theorem State.Inv.setMem {s : State} (h : s.Inv) {m : Memory} (hm : m.wf) : (s.setMem m).Inv where
  memory := hm
  poly := h.poly
  pending := ⟨h.pending.word, h.pending.notDone⟩
  session := h.session.inState (s.setMem m)
  errListed := h.errListed
  resultOnError := h.resultOnError

/-- A change of the session alone keeps the invariant when the session is legal after it. -/
theorem State.Inv.withSession {s : State} (h : s.Inv) {x : Sess} {j l : Word} {np kl : Byte}
    (hs : State.SessionLegal { s with sess := x, sessJ := j, sessL := l, sessNP := np, sessKL := kl }) :
    State.Inv { s with sess := x, sessJ := j, sessL := l, sessNP := np, sessKL := kl } where
  memory := h.memory
  poly := h.poly
  pending := ⟨h.pending.word, h.pending.notDone⟩
  session := hs
  errListed := h.errListed
  resultOnError := h.resultOnError

/-- With no command pending nothing is asked of CMD and DONE. -/
theorem State.PendingLegal.of_none {s : State} (h : s.pending = none) : s.PendingLegal where
  word w hw := by simp [h] at hw
  notDone hn := absurd h hn

theorem State.Inv.complete {s : State} (h : s.Inv) (v : Byte) : (s.complete v).Inv where
  memory := h.memory
  poly := h.poly
  pending := .of_none rfl
  session := h.session.inState (s.complete v)
  errListed := rfl
  resultOnError he := absurd rfl he

theorem State.Inv.raise {s : State} (h : s.Inv) (c : Cause) : (s.raise c).Inv where
  memory := h.memory
  poly := h.poly
  pending := .of_none rfl
  session := h.session.inState (s.raise c)
  errListed := c.err_listed
  resultOnError _ := rfl

theorem State.Inv.issue {s : State} (h : s.Inv) (w : Word) : (s.issue w).Inv where
  memory := h.memory
  poly := h.poly
  pending := ⟨fun _ hw => Option.some.inj hw, fun _ => rfl⟩
  session := h.session.inState (s.issue w)
  errListed := h.errListed
  resultOnError := h.resultOnError

/-- A STATUS write can only clear DONE. -/
theorem State.Inv.writeStatus {s : State} (h : s.Inv) (v : Word) : (s.writeStatus v).Inv where
  memory := h.memory
  poly := h.poly
  pending := ⟨h.pending.word, fun hp => by rw [State.writeStatus_done, h.pending.notDone hp, Bool.false_and]⟩
  session := h.session.inState (s.writeStatus v)
  errListed := h.errListed
  resultOnError := h.resultOnError

theorem State.Inv.resetRegs {s : State} (h : s.Inv) : s.resetRegs.Inv where
  memory := h.memory
  poly := h.poly
  pending := .of_none rfl
  session := .of_idle rfl (Nat.le_refl _)
  errListed := rfl
  resultOnError he := absurd rfl he

theorem State.Inv.rst {s : State} (h : s.Inv) : s.rst.Inv := by
  refine h.resetRegs.setMem ?_
  split_ifs
  · exact Memory.redrawByteBufs_wf h.memory
  · exact h.memory

theorem State.Inv.powerOn {s : State} (h : s.Inv) : s.powerOn.Inv :=
  h.resetRegs.setMem (Memory.redrawAll_wf _)

theorem State.WorkedBy.sess_eq {i : Instr} {s u : State} (hu : s.WorkedBy i u) : u.sess = s.sess := by
  obtain ⟨m, r, d, -, -⟩ := hu
  rfl

theorem State.Inv.workedBy {i : Instr} {s u : State} (h : s.Inv) (hu : s.WorkedBy i u) : u.Inv := by
  obtain ⟨m, r, d, hm, -⟩ := hu
  exact (h.setMem (hm.wf h.memory)).withHostFields

/-! ### Each event keeps the invariant -/

/-- Every end of a command keeps the invariant. -/
theorem CommandEnd.inv {i : Instr} {s t : State} (h : CommandEnd i s t) (hs : s.Inv) : t.Inv := by
  cases h with
  | error c hu hx =>
    have hw := hs.workedBy hu
    exact (hw.withSession (hw.session.setSess (hu.sess_eq ▸ hx))).raise c
  | value v hu hx _ =>
    have hw := hs.workedBy hu
    exact (hw.withSession (hw.session.setSess (hu.sess_eq ▸ hx))).complete v
  | splitOpened _ hc => exact (hs.withSession (.splitOpened hc)).complete 0
  | combineOpened _ hc => exact (hs.withSession (.combineOpened hc)).complete 0
  | advanced v hu ho _ =>
    have hw := hs.workedBy hu
    exact (hw.withSession (hw.session.advance (hu.sess_eq ▸ ho))).complete v

theorem WriteEffect.inv {off : Nat} {n : Width} {v : Word} {s t : State} (h : WriteEffect off n v s t)
    (hs : s.Inv) : t.Inv := by
  cases h with
  | none => exact hs
  | status => exact hs.writeStatus v
  | issue _ => exact hs.issue v
  | stored _ hb => exact hs.setMem (writeBytes_wf hs.memory hb)
  | dropped _ | ctrl | cfgN _ | cfgK _ | cfgL _ | cfgP _ => exact hs.withHostFields

theorem execute_inv {w : Word} {s t : State} (hs : s.Inv) (h : execute w s = .next t) : t.Inv := by
  obtain ⟨t', ht', hend⟩ := execute_end w s
  obtain rfl : t' = t := Host.Outcome.next.inj (ht'.symm.trans h)
  rcases hend with ⟨c, rfl⟩ | ⟨i, -, hend⟩
  · exact hs.raise c
  · exact hend.inv hs

/-- Serving any event keeps the invariant. -/
theorem serve_inv {e : Event} {s t : State} (hs : s.Inv) (h : serve e s = .next t) : t.Inv := by
  cases e with
  | read off n =>
    obtain rfl := Host.Outcome.next.inj h
    rw [hostRead_shape]
    exact hs.withHostFields
  | write off n v =>
    obtain rfl := Host.Outcome.next.inj h
    obtain ⟨u, r, hu, heq⟩ := hostWrite_effect off n v s
    rw [heq]
    exact (hu.inv hs).withHostFields
  | completion =>
    rw [serve, completion] at h
    split at h
    · exact execute_inv hs h
    · obtain rfl := Host.Outcome.next.inj h
      exact hs
  | rst =>
    obtain rfl := Host.Outcome.next.inj h
    exact hs.rst
  | powerOn =>
    obtain rfl := Host.Outcome.next.inj h
    exact hs.powerOn

end Sys2Proof.Machine

namespace Sys2Proof.Proofs

open Sys2Proof.Machine

/-- Settles O24: the step serves one event, and every event keeps the invariant. -/
theorem stepKeepsTheMachineLegal : Obligations.StepKeepsTheMachineLegal := by
  intro s t hs hstep
  exact serve_inv hs.withHostFields hstep

/-- Settles O21: besides MAT, CONST, ROWLEN and the random source a command changes only what its end sets. -/
theorem commandsLeaveTheHostsStateAlone : Obligations.CommandsLeaveTheHostsStateAlone := by
  intro i s
  obtain ⟨t, ht, hend⟩ := exec_end i s
  obtain ⟨_, ⟨m, r, d, hm, hr⟩, heq⟩ := hend.shape
  refine ⟨t, ht, ?_⟩
  rw [heq]
  exact ⟨rfl, rfl, rfl, rfl, rfl, rfl, rfl, rfl, rfl, rfl, rfl,
    fun a hlo hhi => hm.olen a ((isOlenAddr_iff a).mpr ⟨hlo, Nat.lt_succ_of_le hhi⟩), hr⟩

/-- Settles O23: the counters after each end of a command. -/
theorem sessionCountersFollowSuccessOnly : Obligations.SessionCountersFollowSuccessOnly := by
  intro i s
  obtain ⟨t, ht, hend⟩ := exec_end i s
  refine ⟨t, ht, ?_⟩
  cases hend with
  | error c hu _ =>
    obtain ⟨m, r, d, -, -⟩ := hu
    exact ⟨fun _ => ⟨rfl, rfl, rfl, rfl⟩, fun h => absurd h c.err_ecode_ne_zero⟩
  | value v hu _ hi =>
    obtain ⟨m, r, d, -, -⟩ := hu
    obtain ⟨hsi, hci, hcb, hsb⟩ : i ≠ .splitInit ∧ i ≠ .combineInit ∧ i ≠ .combineByte ∧ i.opcode ≠ 0x21 := by
      simpa [MovesCounters] using hi
    refine ⟨fun h => absurd rfl h, fun _ => ?_⟩
    simp only [hsi, hci, hcb, hsb, or_self, if_false]
    exact ⟨rfl, rfl, rfl, rfl⟩
  | splitOpened hi hc =>
    obtain ⟨-, hkn, hn, -⟩ := splitCheck_eq_none hc
    subst hi
    refine ⟨fun h => absurd rfl h, fun _ => ⟨rfl, rfl, ?_, ?_⟩⟩
    · exact setWidth_eight_toNat hn
    · exact setWidth_eight_toNat (hkn.trans hn)
  | combineOpened hi hc =>
    obtain ⟨-, hp⟩ := combineCheck_eq_none hc
    subst hi
    exact ⟨fun h => absurd rfl h, fun _ => ⟨rfl, rfl, setWidth_eight_toNat hp, rfl⟩⟩
  | advanced v hu _ hi =>
    obtain ⟨m, r, d, -, -⟩ := hu
    refine ⟨fun h => absurd rfl h, fun _ => ?_⟩
    have hsi : i ≠ .splitInit := by rintro rfl; simp [Instr.opcode] at hi
    have hci : i ≠ .combineInit := by rintro rfl; simp [Instr.opcode] at hi
    simp only [hsi, hci, hi, or_self, if_false, if_true]
    exact ⟨rfl, rfl, rfl, rfl⟩

end Sys2Proof.Proofs
end

section
/-! PROOFS. Word accesses to the registers (10_state.md R22 to R36, 20_memory.md R79): the step of a read and of
a write, said once for every register, and the registers' words as sums of their fields. -/

namespace Sys2Proof.Machine

theorem regionAt_register {off : Nat} (h : off < 0x100) : regionAt off = .register (regAt off) := if_pos h

/-- An aligned word access to a register passes the checks of R79. -/
theorem accessFails_register {off : Nat} (h : off < 0x100) (ha : off % 4 = 0) : accessFails off .word = false := by
  simp [accessFails, regionAt_register h, Width.bytes, ha]

/-- What arrives at the inputs and the earlier answer are in no register. -/
theorem regRead_takeTurn (r : Reg) (s : State) : regRead r s.takeTurn = regRead r s := by
  cases r <;> rfl

/-- The step of a word read of a register answers its word and changes nothing else. -/
theorem step_read_register {s : State} {off : Nat} (h : off < 0x100) (ha : off % 4 = 0)
    (he : s.arrives (.read off .word)) :
    step s = .next { s.takeTurn with reply := some (.data (regRead (regAt off) s)) } := by
  rw [step_of_head he, ← regRead_takeTurn]
  simp [serve, hostRead, regionAt_register h, accessFails_register h ha, State.answerWith]

/-- The step of a word write to a register has the register's own effect and is answered. -/
theorem step_write_register {s : State} {off : Nat} {v : Word} (h : off < 0x100) (ha : off % 4 = 0)
    (he : s.arrives (.write off .word v)) :
    step s = .next ((regWrite (regAt off) v s.takeTurn).answerWith .done) := by
  rw [step_of_head he]
  simp [serve, hostWrite, regionAt_register h, accessFails_register h ha]

theorem regAt_reserved {off : Nat} (h : 0x34 ≤ off) : regAt off = .reserved := by
  rw [regAt]
  split
  case h_14 => rfl
  all_goals omega

/-- With BUSY = 0 a write that BUSY = 1 would drop takes its effect `f`. -/
theorem step_write_register_of_idle {s : State} {off : Nat} {v : Word} {f : State → State} (h : off < 0x100)
    (ha : off % 4 = 0) (hf : ∀ t, regWrite (regAt off) v t = unlessBusy f t) (hp : s.pending = none)
    (he : s.arrives (.write off .word v)) : step s = .next ((f s.takeTurn).answerWith .done) := by
  rw [step_write_register h ha he, hf]
  simp [unlessBusy, State.busy, hp]

/-! ### The registers' words as numbers -/

/-- Two fields side by side, as a number. -/
theorem toNat_append_eq_add {m n : Nat} (x : BitVec m) (y : BitVec n) :
    (x ++ y).toNat = x.toNat * 2 ^ n + y.toNat := by
  rw [BitVec.toNat_append, ← Nat.shiftLeft_add_eq_or_of_lt y.isLt, Nat.shiftLeft_eq]

theorem State.errf_toNat (s : State) : s.errf.toNat = if s.err.ecode = 0 then 0 else 1 := by
  by_cases h : s.err.ecode = 0
  · rw [if_pos h, State.errf, h]; rfl
  · rw [if_neg h, State.errf, bne_iff_ne.mpr h]; rfl

theorem State.ctrlWord_toNat (s : State) : s.ctrlWord.toNat = s.ie.toNat := by
  simp only [State.ctrlWord, toNat_append_eq_add, BitVec.toNat_ofBool, BitVec.ofNat_eq_ofNat, BitVec.toNat_ofNat,
    Nat.zero_mod, Nat.zero_mul, Nat.zero_add]

theorem State.statusWord_toNat (s : State) : s.statusWord.toNat =
    s.pending.isSome.toNat + 2 * s.done.toNat + 4 * s.ovr.toNat + 8 * (if s.err.ecode = 0 then 0 else 1) +
      16 * (sessBits s.sess).toNat := by
  simp only [State.statusWord, toNat_append_eq_add, BitVec.toNat_ofBool, State.errf_toNat, State.busy,
    BitVec.ofNat_eq_ofNat, BitVec.toNat_ofNat]
  omega

theorem Err.word_toNat (e : Err) : e.word.toNat = e.ecode.toNat + 256 * e.sub.toNat + 65536 * e.info.toNat := by
  simp only [Err.word, toNat_append_eq_add, BitVec.ofNat_eq_ofNat, BitVec.toNat_ofNat]
  omega

theorem State.sessNKWord_toNat (s : State) : s.sessNKWord.toNat = s.sessNP.toNat + 256 * s.sessKL.toNat := by
  simp only [State.sessNKWord, toNat_append_eq_add, BitVec.ofNat_eq_ofNat, BitVec.toNat_ofNat]
  omega

/-- A register that reads as the number `v`, at its offset. -/
theorem step_read_register_toNat {s : State} {off v : Nat} (h : off < 0x100) (ha : off % 4 = 0)
    (hv : (regRead (regAt off) s).toNat = v) (he : s.arrives (.read off .word)) :
    step s = .next { s.takeTurn with reply := some (.data (BitVec.ofNat 32 v)) } ∧ v < 2 ^ 32 := by
  subst hv
  rw [BitVec.ofNat_toNat, BitVec.setWidth_eq]
  exact ⟨step_read_register h ha he, BitVec.isLt _⟩

/-- Bit 0 of a word alone (R24). -/
theorem ctrlWord_bit0 (v : Word) : (0 : BitVec 31) ++ BitVec.ofBool (v.getLsbD 0) = v &&& 1 := by
  refine (BitVec.eq_of_toNat_eq ?_).trans BitVec.and_one_eq_setWidth_ofBool_getLsbD.symm
  rw [BitVec.toNat_setWidth_of_le (by decide), toNat_append_eq_add]
  exact (congrArg (· + _) (Nat.zero_mul _)).trans (Nat.zero_add _)

/-- The low half of a word alone (R29, R30, R32). -/
theorem setWidth_half_eq_and (v : Word) : (v.setWidth 16 : Half).setWidth 32 = v &&& 0xFFFF := by
  refine BitVec.eq_of_toNat_eq ?_
  rw [BitVec.toNat_setWidth_of_le (by decide), BitVec.toNat_setWidth, BitVec.toNat_and]
  exact (Nat.and_two_pow_sub_one_eq_mod v.toNat 16).symm

end Sys2Proof.Machine

namespace Sys2Proof.Proofs

open Sys2Proof.Machine

/-- Settles O9: each register's word is the sum of its fields. -/
theorem registerReadsShowTheirFields : Obligations.RegisterReadsShowTheirFields := by
  intro s reads
  have narrow {w : Nat} (x : BitVec w) (hw : w ≤ 32) : (x.setWidth 32).toNat = x.toNat :=
    BitVec.toNat_setWidth_of_le hw
  refine ⟨?_, ?_, ?_, ?_, ?_, ?_, ?_, ?_, ?_, ?_, ?_, ?_, ?_⟩ <;>
    refine step_read_register_toNat (by decide) (by decide) ?_
  · rfl
  · exact s.ctrlWord_toNat
  · refine s.statusWord_toNat.trans ?_
    cases s.sess <;> rfl
  · rfl
  · exact narrow s.result (by decide)
  · exact s.err.word_toNat
  · exact narrow s.cfgN (by decide)
  · exact narrow s.cfgK (by decide)
  · rfl
  · exact narrow s.cfgP (by decide)
  · rfl
  · rfl
  · exact s.sessNKWord_toNat

/-- Settles O8: from 0x34 up the register is `Reg.reserved`, which reads 0 and ignores writes. -/
theorem reservedRegistersReadZeroAndIgnoreWrites : Obligations.ReservedRegistersReadZeroAndIgnoreWrites := by
  intro s off v hlo hhi ha
  have hlt : off < 0x100 := by omega
  refine ⟨fun he => ?_, fun he => ?_⟩
  · rw [step_read_register hlt ha he, regAt_reserved hlo]; rfl
  · rw [step_write_register hlt ha he, regAt_reserved hlo]; rfl

/-- Settles O16: the effect of each write, and irq computed from the fields it leaves. -/
theorem ctrlAndStatusWritesTakeEffectAtOnce : Obligations.CtrlAndStatusWritesTakeEffectAtOnce := by
  intro s v
  refine ⟨fun he => ⟨_, step_write_register (by decide) (by decide) he, rfl, ctrlWord_bit0 v, rfl⟩,
    fun he => ⟨_, step_write_register (by decide) (by decide) he, rfl, ?_⟩⟩
  have hirq : State.irq ((regWrite .status v s.takeTurn).answerWith .done) =
    (s.ie && (s.done && !v.getLsbD 1)) := rfl
  refine ⟨fun h => ?_, fun h => ?_⟩ <;> refine hirq.trans ?_ <;> rw [h]
  · rw [Bool.not_true, Bool.and_false, Bool.and_false]
  · rw [Bool.not_false, Bool.and_true]; rfl

/-- Settles O18: with BUSY 0 each write stores its value, and the register reads it back. -/
theorem configRegistersHoldWhatIsWritten : Obligations.ConfigRegistersHoldWhatIsWritten := by
  intro s v hp
  refine ⟨fun he => ?_, fun he => ?_, fun he => ?_, fun he => ?_⟩ <;>
    refine ⟨_, step_write_register_of_idle (by decide) (by decide) (fun _ => rfl) hp he, rfl, ?_⟩
  · exact setWidth_half_eq_and v
  · exact setWidth_half_eq_and v
  · rfl
  · exact setWidth_half_eq_and v

end Sys2Proof.Proofs
end

section
/-! PROOFS. Host accesses by the checks of R79 and the address map of R64: which accesses get BusError, what one to a
buffer or to INVTAB does with BUSY = 0 and BUSY = 1 (20_memory.md R79 to R81), and the order of the bytes (R62). -/

namespace Sys2Proof.Machine

/-! ### The checks of R79 -/

theorem accessFails_eq_false_iff {off : Nat} {n : Width} : accessFails off n = false ↔
    off % n.bytes = 0 ∧ regionAt off ≠ .unmapped ∧ ((regionAt off).wordOnly = true → n = .word) := by
  refine ⟨accessFails_eq_false, fun ⟨ha, hu, hw⟩ => ?_⟩
  simp only [accessFails, Bool.or_eq_false_iff, Bool.and_eq_false_imp, bne_eq_false_iff_eq, beq_eq_false_iff_ne]
  exact ⟨⟨ha, hu⟩, hw⟩

theorem regionAt_unmapped {off : Nat} (h : (0x400 ≤ off ∧ off ≤ 0x7FF) ∨ (0xC00 ≤ off ∧ off ≤ 0xFFFF)) :
    regionAt off = .unmapped := by
  have := regionAt_spec off
  grind

theorem regionAt_notDecoded_iff {off : Nat} : regionAt off = .notDecoded ↔ 0x20000 ≤ off := by
  have := regionAt_spec off
  grind

theorem regionAt_invtab {off : Nat} (hlo : 0x300 ≤ off) (hhi : off ≤ 0x3FF) : regionAt off = .invtab := by
  have := regionAt_spec off
  grind

theorem regionAt_olen {off : Nat} (h : isOlenAddr off = true) : regionAt off = .olen := by
  rw [isOlenAddr_iff] at h
  have := regionAt_spec off
  grind

theorem regionAt_byteBuf {off : Nat} (h : isByteBufAddr off = true) :
    regionAt off = .rowlen ∨ regionAt off = .const ∨ regionAt off = .mat := by
  rw [isByteBufAddr_iff] at h
  have := regionAt_spec off
  grind

/-- The accesses that R63, R65, R66 and R68 refuse. -/
theorem accessFails_of_refused {off : Nat} {n : Width}
    (h : off % n.bytes ≠ 0 ∨ (0x400 ≤ off ∧ off ≤ 0x7FF) ∨ (0xC00 ≤ off ∧ off ≤ 0xFFFF) ∨
      (n ≠ .word ∧ (off ≤ 0xFF ∨ (0x800 ≤ off ∧ off ≤ 0xBFF)))) : accessFails off n = true := by
  refine Bool.of_not_eq_false fun hf => ?_
  obtain ⟨ha, hu, hw⟩ := accessFails_eq_false hf
  rcases h with h | h | h | ⟨hn, h | h⟩
  · exact h ha
  · exact hu (regionAt_unmapped (.inl h))
  · exact hu (regionAt_unmapped (.inr h))
  · exact hn (hw (by rw [regionAt_register (Nat.lt_succ_of_le h)]; rfl))
  · exact hn (hw (by rw [regionAt_olen ((isOlenAddr_iff off).mpr ⟨h.1, Nat.lt_succ_of_le h.2⟩)]; rfl))

/-- An access that fails the checks, read or write, gets BusError and changes nothing (R63, R68, R70). -/
theorem step_of_accessFails {s : State} {off : Nat} {n : Width} {v : Word} (hlt : off < 0x20000)
    (hf : accessFails off n = true) (he : s.arrives (.read off n) ∨ s.arrives (.write off n v)) :
    step s = .next { s.takeTurn with reply := some .busError } := by
  have hd : regionAt off ≠ .notDecoded := fun h => absurd (regionAt_notDecoded_iff.mp h) (Nat.not_le.mpr hlt)
  rcases he with he | he <;> rw [step_of_head he]
  · simp only [serve, hostRead, if_neg hd, if_pos hf, State.answerWith]
  · simp only [serve, hostWrite, if_neg hd, if_pos hf, State.answerWith]

/-! ### Accesses to the buffers and INVTAB -/

/-- An access to a buffer that passes the checks of R79: aligned, at any width in MAT, CONST and ROWLEN (R67), a word
in OLEN (R66). -/
structure BufferAccess (off : Nat) (n : Width) : Prop where
  aligned : off % n.bytes = 0
  place : isByteBufAddr off = true ∨ (n = .word ∧ isOlenAddr off = true)

theorem BufferAccess.of_ranges {off : Nat} {n : Width} (ha : off % n.bytes = 0)
    (h : (0x100 ≤ off ∧ off ≤ 0x2FF) ∨ (0x10000 ≤ off ∧ off ≤ 0x1FFFF) ∨ (n = .word ∧ 0x800 ≤ off ∧ off ≤ 0xBFF)) :
    BufferAccess off n where
  aligned := ha
  place := by
    rw [isByteBufAddr_iff, isOlenAddr_iff]
    simpa only [Nat.lt_succ_iff, or_assoc] using h

theorem BufferAccess.regionAt_eq {off : Nat} {n : Width} (h : BufferAccess off n) :
    regionAt off = .rowlen ∨ regionAt off = .const ∨ regionAt off = .mat ∨ regionAt off = .olen := by
  rcases h.place with hb | ⟨-, ho⟩
  · rcases regionAt_byteBuf hb with hr | hr | hr <;> simp [hr]
  · simp [regionAt_olen ho]

theorem BufferAccess.accessFails_eq {off : Nat} {n : Width} (h : BufferAccess off n) : accessFails off n = false := by
  refine accessFails_eq_false_iff.mpr ⟨h.aligned, ?_⟩
  rcases h.place with hb | ⟨hn, ho⟩
  · rcases regionAt_byteBuf hb with hr | hr | hr <;> simp [hr, Region.wordOnly]
  · simp [regionAt_olen ho, hn]

theorem byteAt_of_isBufAddr (s : State) {a : Nat} (h : isBufAddr a = true) : byteAt s a = s.mem.read a := by
  refine if_neg fun hr => ?_
  rw [isBufAddr, Bool.or_eq_true] at h
  rcases h with hb | ho
  · rcases regionAt_byteBuf hb with h | h | h <;> rw [h] at hr <;> cases hr
  · rw [regionAt_olen ho] at hr; cases hr

theorem accessFails_invtab {off : Nat} {n : Width} (ha : off % n.bytes = 0) (hlo : 0x300 ≤ off) (hhi : off ≤ 0x3FF) :
    accessFails off n = false := by
  simp [accessFails_eq_false_iff, ha, regionAt_invtab hlo hhi, Region.wordOnly]

/-- An aligned access to INVTAB reads the table's entries (R41). -/
theorem bufRead_invtab {s : State} {off : Nat} {n : Width} (ha : off % n.bytes = 0) (hlo : 0x300 ≤ off)
    (hhi : off ≤ 0x3FF) : bufRead s off n =
      wordOfBytes ((List.range n.bytes).map fun k => invtab s.poly (BitVec.ofNat 8 (off - 0x300 + k))) := by
  refine congrArg wordOfBytes (List.map_congr_left fun k hk => ?_)
  have hk := List.mem_range.mp hk
  have hin : off + k ≤ 0x3FF := by cases n <;> simp only [Width.bytes] at ha hk <;> omega
  rw [byteAt, if_pos (regionAt_invtab (by omega) hin), Nat.sub_add_comm hlo]

/-- A buffer access reads the bytes the memory holds. -/
theorem BufferAccess.bufRead_eq {off : Nat} {n : Width} (h : BufferAccess off n) (s : State) :
    bufRead s off n = wordOfBytes ((List.range n.bytes).map fun k => s.mem.read (off + k)) := by
  refine congrArg wordOfBytes (List.map_congr_left fun k hk => ?_)
  exact byteAt_of_isBufAddr s (access_in_buffer h.aligned (List.mem_range.mp hk) h.regionAt_eq)

theorem step_write_buffer {s : State} {off : Nat} {n : Width} {v : Word} (h : BufferAccess off n)
    (he : s.arrives (.write off n v)) :
    step s = .next ((bufWrite off n v s.takeTurn).answerWith .done) := by
  rw [step_of_head he]
  rcases h.regionAt_eq with hr | hr | hr | hr <;> simp [serve, hostWrite, hr, h.accessFails_eq]

/-- With BUSY = 0 a buffer write stores its bytes (R79). -/
theorem step_write_buffer_of_idle {s : State} {off : Nat} {n : Width} {v : Word} (h : BufferAccess off n)
    (hp : s.pending = none) (he : s.arrives (.write off n v)) :
    step s = .next { s.takeTurn with mem := writeBytes off n v s.mem, reply := some .done } := by
  rw [step_write_buffer h he]
  simp [bufWrite, unlessBusy, State.busy, State.takeTurn, State.setMem, State.answerWith, hp]

/-- What `unlessBusy` guards sets OVR alone while BUSY = 1 (R80). -/
theorem unlessBusy_of_pending (f : State → State) {s : State} (hp : s.pending ≠ none) :
    unlessBusy f s = s.setOvr :=
  if_pos (Option.isSome_iff_ne_none.mpr hp)

theorem step_write_buffer_of_busy {s : State} {off : Nat} {n : Width} {v : Word} (h : BufferAccess off n)
    (hp : s.pending ≠ none) (he : s.arrives (.write off n v)) :
    step s = .next { s.takeTurn with ovr := true, reply := some .done } := by
  rw [step_write_buffer h he, bufWrite, unlessBusy_of_pending _ (s := s.takeTurn) hp]
  rfl

/-- The counterpart of `step_write_register_of_idle` while BUSY = 1 (R80). -/
theorem step_write_register_of_busy {s : State} {off : Nat} {v : Word} {f : State → State} (h : off < 0x100)
    (ha : off % 4 = 0) (hf : ∀ t, regWrite (regAt off) v t = unlessBusy f t) (hp : s.pending ≠ none)
    (he : s.arrives (.write off .word v)) :
    step s = .next { s.takeTurn with ovr := true, reply := some .done } := by
  rw [step_write_register h ha he, hf, unlessBusy_of_pending f (s := s.takeTurn) hp]
  rfl

/-- A write to INVTAB is ignored and answered without BusError (R69). -/
theorem step_write_invtab {s : State} {off : Nat} {n : Width} {v : Word} (ha : off % n.bytes = 0)
    (hlo : 0x300 ≤ off) (hhi : off ≤ 0x3FF) (he : s.arrives (.write off n v)) :
    step s = .next { s.takeTurn with reply := some .done } := by
  rw [step_of_head he]
  simp [serve, hostWrite, regionAt_invtab hlo hhi, accessFails_invtab ha hlo hhi, State.answerWith]

theorem step_read_byteBuf {s : State} {off : Nat} {n : Width} (ha : off % n.bytes = 0)
    (hb : isByteBufAddr off = true) (he : s.arrives (.read off n)) :
    step s = .next (readByteBuf off n s.takeTurn) := by
  have hf : accessFails off n = false := (BufferAccess.mk ha (.inl hb)).accessFails_eq
  rw [step_of_head he]
  rcases regionAt_byteBuf hb with hr | hr | hr <;> simp [serve, hostRead, hr, hf]

/-- OLEN and INVTAB answer what they hold, BUSY or not (R81). -/
theorem step_read_of_readableWhileBusy {s : State} {off : Nat} {n : Width} (hf : accessFails off n = false)
    (hr : regionAt off = .olen ∨ regionAt off = .invtab) (he : s.arrives (.read off n)) :
    step s = .next { s.takeTurn with reply := some (.data (bufRead s off n)) } := by
  rw [step_of_head he]
  rcases hr with hr | hr <;> (simp only [serve, hostRead, hr, hf]; rfl)

/-- With BUSY = 0 a buffer read answers the bytes the memory holds (R79). -/
theorem step_read_buffer_of_idle {s : State} {off : Nat} {n : Width} (h : BufferAccess off n)
    (hp : s.pending = none) (he : s.arrives (.read off n)) :
    step s = .next { s.takeTurn with
      reply := some (.data (wordOfBytes ((List.range n.bytes).map fun k => s.mem.read (off + k)))) } := by
  rw [← h.bufRead_eq]
  rcases h.place with hb | ⟨-, ho⟩
  · rw [step_read_byteBuf h.aligned hb he]
    have hidle : ¬ s.takeTurn.busy = true := by simp [State.busy, State.takeTurn, hp]
    exact congrArg Host.Outcome.next (if_neg hidle)
  · exact step_read_of_readableWhileBusy h.accessFails_eq (.inl (regionAt_olen ho)) he

/-! ### The bytes of a word -/

/-- The bytes of a word, put together again from the low one up, are its low bits (R62). -/
theorem getLsbD_wordOfBytes (k : Nat) (v : Word) {i : Nat} (hi : i < 32) :
    (wordOfBytes ((List.range k).map (byteOfWord v))).getLsbD i = (decide (i < 8 * k) && v.getLsbD i) := by
  induction k generalizing v i with
  | zero => simp [wordOfBytes]
  | succ k ih =>
    have htail : (byteOfWord v) ∘ Nat.succ = byteOfWord (v >>> 8) := by
      funext j
      refine BitVec.eq_of_getLsbD_eq fun i _ => ?_
      simp [byteOfWord, Nat.mul_succ, Nat.add_comm, Nat.add_left_comm]
    rw [List.range_succ_eq_map, List.map_cons, List.map_map, htail, wordOfBytes]
    by_cases hlow : i < 8
    · have hrange : i < 8 * (k + 1) := by omega
      simp [byteOfWord, hi, hlow, hrange]
    · have hrange : i - 8 < 8 * k ↔ i < 8 * (k + 1) := by omega
      have hbit : 8 + (i - 8) = i := by omega
      rw [BitVec.getLsbD_or, BitVec.getLsbD_shiftLeft, ih _ (by omega), BitVec.getLsbD_ushiftRight, hbit]
      simp [byteOfWord, hi, hlow, hrange]

theorem wordOfBytes_byteOfWord (k : Nat) (v : Word) :
    wordOfBytes ((List.range k).map (byteOfWord v)) = BitVec.ofNat 32 (v.toNat % 2 ^ (8 * k)) := by
  refine BitVec.eq_of_getLsbD_eq fun i hi => ?_
  rw [getLsbD_wordOfBytes k v hi, BitVec.getLsbD_ofNat, Nat.testBit_mod_two_pow, decide_eq_true hi, Bool.true_and]
  rfl

theorem lowBytes_eq_ofNat (n : Width) (v : Word) : lowBytes n v = BitVec.ofNat 32 (v.toNat % 2 ^ (8 * n.bytes)) := by
  refine BitVec.eq_of_toNat_eq ?_
  cases n with
  | byte => simp [lowBytes, Width.bytes]
  | half => simp [lowBytes, Width.bytes]
  | word => simp [lowBytes, Width.bytes, Nat.mod_eq_of_lt v.isLt]

/-- Every byte after a write: `v`'s at the offset on, low byte first, and the earlier one elsewhere (R62). -/
theorem read_writeBytes (off : Nat) (n : Width) (v : Word) (m : Memory) (a : Nat) :
    (writeBytes off n v m).read a =
      if off ≤ a ∧ a < off + n.bytes then byteOfWord v (a - off) else m.read a := by
  obtain ⟨hin, hout⟩ := forUp_write (n := n.bytes) (addr := fun k => off + k) (V := fun k _ => byteOfWord v k) (m := m)
    (fun _ _ _ _ h => Nat.add_left_cancel h) (fun _ _ _ _ => rfl)
  split_ifs with h
  · obtain ⟨k, rfl⟩ := Nat.exists_eq_add_of_le h.1
    rw [Nat.add_sub_cancel_left]
    exact hin k (by omega)
  · exact hout a fun k hk => by omega

end Sys2Proof.Machine

namespace Sys2Proof.Proofs

open Sys2Proof.Machine

/-- Settles O10: each of these accesses fails the checks of R79. -/
theorem busErrorsChangeNothing : Obligations.BusErrorsChangeNothing := by
  intro s off n v hlt h he
  exact ⟨step_of_accessFails hlt (accessFails_of_refused h) he, rfl⟩

/-- Settles O11: the port answers no access outside the window. -/
theorem undecodedOffsetsReachNothing : Obligations.UndecodedOffsetsReachNothing := by
  intro s off n v h he
  have hr : regionAt off = .notDecoded := regionAt_notDecoded_iff.mpr h
  rcases he with he | he <;> rw [step_of_head he]
  · simp only [serve, hostRead, if_pos hr]
  · simp only [serve, hostWrite, if_pos hr]

/-- Settles O12: the shape of every read. -/
theorem readsHaveNoSideEffect : Obligations.ReadsHaveNoSideEffect := by
  intro s off n he
  rw [step_of_head he]
  exact ⟨_, _, congrArg Host.Outcome.next (hostRead_shape off n s.takeTurn)⟩

/-- Settles O13: the step of a buffer write, and every byte after it; byte `k` of a word is by definition its low
byte after a shift by `8 * k`. -/
theorem bufferWriteStoresItsBytesOnly : Obligations.BufferWriteStoresItsBytesOnly := by
  intro s off n v hp ha hr he
  exact ⟨_, step_write_buffer_of_idle (.of_ranges ha hr) hp he, rfl, read_writeBytes off n v s.mem⟩

/-- Settles O14: the read finds the word's bytes where the write put them. -/
theorem bufferReadReturnsWhatWasWritten : Obligations.BufferReadReturnsWhatWasWritten := by
  intro s off n v rest hp ha hr hin
  have h := BufferAccess.of_ranges ha hr
  have hbytes : (List.range n.bytes).map (fun k => (writeBytes off n v s.mem).read (off + k)) =
      (List.range n.bytes).map (byteOfWord v) := by
    refine List.map_congr_left fun k hk => ?_
    have := List.mem_range.mp hk
    rw [read_writeBytes, if_pos (by omega), Nat.add_sub_cancel_left]
  refine ⟨_, _, step_write_buffer_of_idle h hp (by rw [State.arrives, hin]; rfl),
    step_read_buffer_of_idle h hp (by simp [State.arrives, State.takeTurn, hin]), ?_⟩
  rw [← wordOfBytes_byteOfWord, ← hbytes]

/-- Settles O15: what each write does, by the location it names. -/
theorem busyWritesAreDroppedAndSetOvr : Obligations.BusyWritesAreDroppedAndSetOvr := by
  intro s off n v he
  refine ⟨fun hp h => ?_, ?_, ?_, fun ha h => ?_, fun hlt h => ?_⟩
  · rcases h with ⟨rfl, h⟩ | ⟨ha, h⟩
    · simp only [List.mem_cons, List.not_mem_nil, or_false] at h
      rcases h with rfl | rfl | rfl | rfl | rfl <;>
        exact step_write_register_of_busy (by decide) (by decide) (fun _ => rfl) hp he
    · exact step_write_buffer_of_busy (.of_ranges ha (by tauto)) hp he
  · rintro rfl rfl
    exact step_write_register (by decide) (by decide) he
  · rintro rfl rfl
    exact step_write_register (by decide) (by decide) he
  · rcases h with ⟨rfl, h | h⟩ | h
    · simp only [List.mem_cons, List.not_mem_nil, or_false] at h
      rcases h with rfl | rfl | rfl | rfl | rfl | rfl <;> exact step_write_register (by decide) (by decide) he
    · rw [step_write_register (by omega) ha he, regAt_reserved h.1]; rfl
    · exact step_write_invtab ha h.1 h.2 he
  · exact step_of_accessFails hlt (accessFails_of_refused h) (.inr he)

/-- Settles O19: the read of each kind of buffer. -/
theorem bufferReadsAnswerTheirBytesUnlessBusy : Obligations.BufferReadsAnswerTheirBytesUnlessBusy := by
  intro s off n ha he
  have inByteBuf (h : (0x100 ≤ off ∧ off ≤ 0x2FF) ∨ (0x10000 ≤ off ∧ off ≤ 0x1FFFF)) : isByteBufAddr off = true := by
    rw [isByteBufAddr_iff]; omega
  refine ⟨fun h hp => ?_, fun h hp => ?_, fun hn hlo hhi => ?_, fun hlo hhi => ?_⟩
  · exact step_read_buffer_of_idle ⟨ha, .inl (inByteBuf h)⟩ hp he
  · rw [step_read_byteBuf ha (inByteBuf h) he, ← lowBytes_eq_ofNat]
    exact congrArg Host.Outcome.next (if_pos (Option.isSome_iff_ne_none.mpr hp))
  · subst hn
    have h : BufferAccess off .word := .of_ranges ha (.inr (.inr ⟨rfl, hlo, hhi⟩))
    have hr : regionAt off = .olen := regionAt_olen ((isOlenAddr_iff off).mpr ⟨hlo, by omega⟩)
    have hoff : olenAddr ((off - 0x800) / 4) = off := by
      simp only [olenAddr, Width.bytes] at ha ⊢; omega
    rw [step_read_of_readableWhileBusy h.accessFails_eq (.inl hr) he, h.bufRead_eq, Memory.olen, hoff]
    rfl
  · rw [step_read_of_readableWhileBusy (accessFails_invtab ha hlo hhi) (.inr (regionAt_invtab hlo hhi)) he,
      bufRead_invtab ha hlo hhi]

end Sys2Proof.Proofs
end

section
/-! PROOFS. Decoding by the rows of the opcode map (30_encoding.md R93, R94): the row of a word, the checks in their
order, and the command a word holds as the command with the word's own fields. -/

namespace Sys2Proof

/-! ### The rows of the opcode map -/

/-- The lookup by a row's opcode finds that row: no other row has its opcode. -/
theorem find?_opcodeTable {r : OpcodeRow} (hr : r ∈ opcodeTable) :
    opcodeTable.find? (fun q => q.op == r.op) = some r := by
  fin_cases hr <;> rfl

theorem row_eq_of_op_eq {q r : OpcodeRow} (hq : q ∈ opcodeTable) (hr : r ∈ opcodeTable) (h : q.op = r.op) : q = r :=
  Option.some.inj (by rw [← find?_opcodeTable hq, h, find?_opcodeTable hr])

/-- What a row builds from fields its format allows is the command with that opcode and those fields. -/
theorem build_fields {r : OpcodeRow} (hr : r ∈ opcodeTable) {o : Operands} (ho : r.format.reservedZero o = true) :
    (r.build o).opcode = r.op ∧ (r.build o).operands = o := by
  obtain ⟨a, b, c⟩ := o
  fin_cases hr <;> simp_all [Format.reservedZero, Instr.opcode, Instr.operands]

/-- Every command has a row, which builds it from its own fields. -/
theorem exists_row (i : Instr) :
    ∃ r ∈ opcodeTable, r.op = i.opcode ∧ r.format = i.format ∧ r.build i.operands = i := by
  cases i <;> simp [opcodeTable, Instr.opcode, Instr.format, Instr.operands]

/-! ### Decoding -/

theorem decode_of_row {w : Word} {r : OpcodeRow} (hr : r ∈ opcodeTable) (hop : r.op = opField w) :
    decode w = if r.format.reservedZero (operandFields w) then .instr (r.build (operandFields w))
      else .illegal (.rsvdField (opField w)) := by
  rw [decode, ← hop, find?_opcodeTable hr]

theorem decode_of_unlisted {w : Word} (h : ∀ r ∈ opcodeTable, r.op ≠ opField w) :
    decode w = .illegal (.opcode (opField w)) := by
  have hnone : opcodeTable.find? (fun r => r.op == opField w) = none :=
    List.find?_eq_none.mpr fun r hr => by simpa using h r hr
  rw [decode, hnone]

/-- A word decodes to the command that has the word's opcode and operand fields, and to no other. -/
theorem decode_eq_instr_iff {w : Word} {i : Instr} :
    decode w = .instr i ↔ i.opcode = opField w ∧ i.operands = operandFields w := by
  constructor
  · intro h
    by_cases hrow : ∃ r ∈ opcodeTable, r.op = opField w
    · obtain ⟨r, hr, hop⟩ := hrow
      rw [decode_of_row hr hop] at h
      split_ifs at h with hz
      obtain rfl := Decoded.instr.inj h
      rw [← hop]
      exact build_fields hr hz
    · rw [decode_of_unlisted fun r hr hop => hrow ⟨r, hr, hop⟩] at h
      cases h
  · rintro ⟨hop, ho⟩
    obtain ⟨r, hr, hrop, hf, hb⟩ := exists_row i
    have hz : r.format.reservedZero (operandFields w) = true := by
      rw [hf, ← ho]; exact Laws.instr_wellFormed i
    rw [decode_of_row hr (hrop.trans hop), if_pos hz, ← ho, hb]

theorem decode_encode (i : Instr) : decode (encode i) = .instr i :=
  decode_eq_instr_iff.mpr ⟨(Laws.opField_encode i).symm, (Laws.operandFields_encode i).symm⟩

/-- A word is its four fields, OP first (R90). -/
theorem append_fields (w : Word) :
    opField w ++ (operandFields w).a ++ (operandFields w).b ++ (operandFields w).c = w := by
  have join (lo len : Nat) : w.extractLsb' (lo + 8) len ++ w.extractLsb' lo 8 = w.extractLsb' lo (len + 8) :=
    BitVec.extractLsb'_append_extractLsb'_eq_extractLsb' rfl
  have h16 := join 16 8
  have h8 := join 8 16
  have h0 := join 0 24
  simp only [opField, operandFields]
  rw [h16, h8, h0]
  exact BitVec.extractLsb'_eq_self

/-! ### The opcodes of each format -/

/-- The opcodes the map lists with format `f`, in its order. -/
def opcodesOf (f : Format) : List Byte := (opcodeTable.filter (fun r => r.format == f)).map (·.op)

theorem op_mem_opcodesOf {r : OpcodeRow} (hr : r ∈ opcodeTable) {f : Format} : r.op ∈ opcodesOf f ↔ r.format = f := by
  simp only [opcodesOf, List.mem_map, List.mem_filter, beq_iff_eq]
  constructor
  · rintro ⟨q, ⟨hq, hf⟩, hop⟩
    rwa [← row_eq_of_op_eq hq hr hop]
  · intro hf
    exact ⟨r, ⟨hr, hf⟩, rfl⟩

theorem not_mem_opcodesOf {op : Byte} (h : ∀ r ∈ opcodeTable, r.op ≠ op) (f : Format) : op ∉ opcodesOf f := by
  simp only [opcodesOf, List.mem_map, List.mem_filter]
  rintro ⟨r, ⟨hr, -⟩, hop⟩
  exact h r hr hop

/-- The check of the reserved fields, field by field (R91). -/
theorem reservedZero_eq_false_iff {f : Format} {o : Operands} : f.reservedZero o = false ↔
    (f = .f0 ∧ o.a ≠ 0) ∨ ((f = .f0 ∨ f = .f1) ∧ o.b ≠ 0) ∨ ((f = .f0 ∨ f = .f1 ∨ f = .f2) ∧ o.c ≠ 0) := by
  cases f <;> simp [Format.reservedZero] <;> tauto

end Sys2Proof

namespace Sys2Proof.Machine

/-! ### Execute and the step -/

theorem execute_of_instr {w : Word} {i : Instr} (h : decode w = .instr i) (s : State) : execute w s = exec i s := by
  rw [execute, h]

theorem execute_of_illegal {w : Word} {e : DecodeError} (h : decode w = .illegal e) (s : State) :
    execute w s = .next (s.errorEnd (decodeCause e).err) := by
  rw [execute, h]; rfl

/-- Every event, in every state, leads to a next state. -/
theorem serve_next (e : Event) (s : State) : ∃ t, serve e s = .next t := by
  cases e with
  | completion =>
    rw [serve, completion]
    split
    · next w _ =>
      obtain ⟨t, ht, -⟩ := execute_end w s
      exact ⟨t, ht⟩
    · exact ⟨s, rfl⟩
  | read off n => exact ⟨_, rfl⟩
  | write off n v => exact ⟨_, rfl⟩
  | rst => exact ⟨_, rfl⟩
  | powerOn => exact ⟨_, rfl⟩

/-- The completion agent has the turn when its event is next, and when there is none. -/
theorem step_of_completionTurn {s : State} (h : s.inputs = [] ∨ s.arrives .completion) :
    step s = completion s.takeTurn := by
  rcases h with h | h
  · exact step_of_empty h
  · exact step_of_head h

theorem completion_of_pending {s : State} {w : Word} (h : s.pending = some w) : completion s = execute w s := by
  rw [completion, h]

theorem completion_of_idle {s : State} (h : s.pending = none) : completion s = .next s := by
  rw [completion, h]

end Sys2Proof.Machine

namespace Sys2Proof.Proofs

open Sys2Proof.Machine

/-- Settles O1: the word of a command has the command's fields. -/
theorem encodeThenDecodeGivesTheCommand : Obligations.EncodeThenDecodeGivesTheCommand :=
  decode_encode

/-- Settles O2: the command has the word's fields, and a word is its fields. -/
theorem decodedWordIsTheCommandsOnlyWord : Obligations.DecodedWordIsTheCommandsOnlyWord := by
  intro w i h
  obtain ⟨hop, ho⟩ := decode_eq_instr_iff.mp h
  rw [encode, hop, ho, append_fields]

/-- Settles O4: the opcode is in no row, or its row's format decides on the operand fields. -/
theorem decodeChecksOpcodeThenReservedFields : Obligations.DecodeChecksOpcodeThenReservedFields := by
  intro w s op a b c f0 f1 f2 f3 reserved
  have hf0 : f0 = (opField w ∈ opcodesOf .f0) := rfl
  have hf1 : f1 = (opField w ∈ opcodesOf .f1) := rfl
  have hf2 : f2 = (opField w ∈ opcodesOf .f2) := rfl
  have hf3 : f3 = (opField w ∈ opcodesOf .f3) := rfl
  by_cases hrow : ∃ r ∈ opcodeTable, r.op = opField w
  · obtain ⟨r, hr, hop⟩ := hrow
    have hlisted : f0 ∨ f1 ∨ f2 ∨ f3 := by
      simp only [hf0, hf1, hf2, hf3, ← hop, op_mem_opcodesOf hr]
      cases r.format <;> simp
    have hreserved : reserved ↔ r.format.reservedZero (operandFields w) = false := by
      simp only [reserved, hf0, hf1, hf2, ← hop, op_mem_opcodesOf hr, reservedZero_eq_false_iff]
      rfl
    refine ⟨fun h => absurd hlisted h, fun h => ?_, fun _ h => ?_⟩
    · have hz := hreserved.mp h
      exact execute_of_illegal (by rw [decode_of_row hr hop, if_neg (by simp [hz])]) s
    · have hz : r.format.reservedZero (operandFields w) = true := by simpa [hreserved] using h
      have hi : decode w = .instr (r.build (operandFields w)) := by rw [decode_of_row hr hop, if_pos hz]
      obtain ⟨hio, hia⟩ := decode_eq_instr_iff.mp hi
      exact ⟨_, hi, hio, hia, execute_of_instr hi s⟩
  · have hun : ∀ r ∈ opcodeTable, r.op ≠ opField w := fun r hr hop => hrow ⟨r, hr, hop⟩
    have hno := not_mem_opcodesOf hun
    refine ⟨fun _ => execute_of_illegal (decode_of_unlisted hun) s, fun h => ?_, fun h => ?_⟩ <;>
      simp [reserved, hf0, hf1, hf2, hf3, hno] at h

/-- Settles O26: the step serves one event. -/
theorem noStepEverStops : Obligations.NoStepEverStops :=
  fun s => serve_next s.nextEvent s.takeTurn

/-- Settles O3: the words are the encodings of these commands. -/
theorem sampleWordsDecodeAsWritten : Obligations.SampleWordsDecodeAsWritten :=
  ⟨decode_encode (.gmul 3 7), decode_encode (.gdiv 9 7), decode_encode (.ginv 0x53), decode_encode (.eval 0 1 3),
    decode_encode (.solve 3 3 3), decode_encode (.splitByte 0x48), decode_encode .combineByte, decode_encode .nop,
    decode_encode .abort⟩

/-- Settles O5: the completion's turn, with and without a pending word. -/
theorem stepRunsThePendingCommand : Obligations.StepRunsThePendingCommand := by
  intro s hturn
  rw [step_of_completionTurn hturn]
  refine ⟨fun w hw => ?_, fun hp => completion_of_idle hp⟩
  rw [completion_of_pending (s := s.takeTurn) hw]
  exact ⟨rfl, fun i hi => execute_of_instr hi _⟩

end Sys2Proof.Proofs
end

section
/-! PROOFS. The life of a command (40_control.md R110 to R114): its issue by a CMD write, and its one end, which is
`Complete(v)` or `raise`. -/

namespace Sys2Proof.Machine

theorem State.WorkedBy.ie_eq {i : Instr} {s u : State} (hu : s.WorkedBy i u) : u.ie = s.ie := by
  obtain ⟨m, r, d, -, -⟩ := hu
  rfl

/-- A command ends in `Complete(v)` or in `raise`, from a state with the IE it began with (R111, R212). -/
theorem CommandEnd.complete_or_raise {i : Instr} {s t : State} (h : CommandEnd i s t) :
    ∃ u : State, ((∃ v, t = u.complete v) ∨ ∃ c, t = u.raise c) ∧ u.ie = s.ie := by
  cases h with
  | error c hu _ => exact ⟨_, .inr ⟨c, rfl⟩, hu.ie_eq⟩
  | value v hu _ _ => exact ⟨_, .inl ⟨v, rfl⟩, hu.ie_eq⟩
  | splitOpened _ _ => exact ⟨_, .inl ⟨0, rfl⟩, rfl⟩
  | combineOpened _ _ => exact ⟨_, .inl ⟨0, rfl⟩, rfl⟩
  | advanced v hu _ _ => exact ⟨_, .inl ⟨v, rfl⟩, hu.ie_eq⟩

/-- So does `Execute(w)` for every word, which is a `raise` for one that is no command (R94, R112). -/
theorem execute_complete_or_raise (w : Word) (s : State) : ∃ u : State,
    ((∃ v, execute w s = .next (u.complete v)) ∨ ∃ c, execute w s = .next (u.raise c)) ∧ u.ie = s.ie := by
  obtain ⟨t, ht, ⟨c, rfl⟩ | ⟨i, -, hend⟩⟩ := execute_end w s
  · exact ⟨s, .inr ⟨c, ht⟩, rfl⟩
  · obtain ⟨u, ⟨v, rfl⟩ | ⟨c, rfl⟩, hie⟩ := hend.complete_or_raise
    · exact ⟨u, .inl ⟨v, ht⟩, hie⟩
    · exact ⟨u, .inr ⟨c, ht⟩, hie⟩

/-- The output irq is IE once DONE is 1 (R45, R219). -/
theorem State.irq_of_done {s : State} (h : s.done = true) : s.irq = s.ie := by
  rw [State.irq, h, Bool.and_true]

end Sys2Proof.Machine

namespace Sys2Proof.Proofs

open Sys2Proof.Machine

/-- Settles O20: `Complete(v)` puts 0 in ERR, and `raise` an ECODE other than 0 there and 0 in RESULT. -/
theorem everyWordEndsInOneCompletion : Obligations.EveryWordEndsInOneCompletion := by
  intro w s
  obtain ⟨u, ⟨v, hv⟩ | ⟨c, hc⟩, hie⟩ := execute_complete_or_raise w s
  · exact ⟨_, hv, rfl, rfl, (State.irq_of_done rfl).trans hie, fun _ => rfl, fun herr => absurd rfl herr⟩
  · exact ⟨_, hc, rfl, rfl, (State.irq_of_done rfl).trans hie, fun hok => absurd hok c.err_ecode_ne_zero,
      fun _ => rfl⟩

/-- Settles O17: a CMD write has the effect `State.issue`, and is one of the writes BUSY = 1 drops. -/
theorem cmdWriteIssuesTheCommand : Obligations.CmdWriteIssuesTheCommand := by
  intro s w he
  have hreg (t : State) : regWrite (regAt 0x00C) w t = unlessBusy (State.issue w) t := rfl
  refine ⟨fun hidle => ?_, fun hbusy => ?_⟩
  · exact step_write_register_of_idle (by decide) (by decide) hreg hidle he
  · exact step_write_register_of_busy (by decide) (by decide) hreg hbusy he

/-- Settles O31: NOP is `Complete(0)`, and ABORT is the same after the session state becomes IDLE. -/
theorem nopAndAbortCompleteWithZero : Obligations.NopAndAbortCompleteWithZero :=
  fun _ => ⟨rfl, rfl⟩

end Sys2Proof.Proofs
end

section
/-! PROOFS. The field unit's arithmetic as polynomial arithmetic over GF(2) (41_field.md R120 to R126): a byte and a
POLY as polynomials, `MUL` as the product modulo POLY, and, for a legal POLY, the bytes inside the field
GF(2)[X] / (POLY), in which the laws of R123 to R125 are those of any field. -/

namespace Sys2Proof.Machine

open Polynomial

/-! ### Numbers as polynomials over GF(2) -/

/-- The polynomial over GF(2) whose coefficient of X^i is bit i of `n` (R120). -/
noncomputable def bitPoly (n : ℕ) : (ZMod 2)[X] := ∑ i ∈ Finset.range n, if n.testBit i then X ^ i else 0

theorem coeff_sum_bits {n k : ℕ} (h : n < 2 ^ k) (i : ℕ) :
    (∑ j ∈ Finset.range k, if n.testBit j then (X : (ZMod 2)[X]) ^ j else 0).coeff i =
      if n.testBit i then 1 else 0 := by
  have hterm (j : ℕ) : (if n.testBit j then (X : (ZMod 2)[X]) ^ j else 0).coeff i =
      if i = j then (if n.testBit i then 1 else 0) else 0 := by
    split_ifs <;> simp_all [coeff_X_pow]
  have hlt : n.testBit i = true → i < k := fun hi =>
    (Nat.pow_lt_pow_iff_right one_lt_two).mp ((Nat.ge_two_pow_of_testBit hi).trans_lt h)
  simp only [finsetSum_coeff, hterm, Finset.sum_ite_eq, Finset.mem_range]
  split_ifs <;> simp_all

theorem coeff_bitPoly (n i : ℕ) : (bitPoly n).coeff i = if n.testBit i then 1 else 0 :=
  coeff_sum_bits Nat.lt_two_pow_self i

theorem bitPoly_eq_sum_range {n k : ℕ} (h : n < 2 ^ k) :
    bitPoly n = ∑ i ∈ Finset.range k, if n.testBit i then X ^ i else 0 := by
  ext i
  rw [coeff_bitPoly, coeff_sum_bits h]

theorem bitPoly_injective : Function.Injective bitPoly := fun m n h => Nat.eq_of_testBit_eq fun i => by
  have hi := congrArg (fun f => f.coeff i) h
  simp only [coeff_bitPoly] at hi
  split_ifs at hi <;> simp_all

@[simp] theorem bitPoly_zero : bitPoly 0 = 0 := rfl

@[simp] theorem bitPoly_one : bitPoly 1 = 1 := by simp [bitPoly]

/-- Addition is XOR (R120). -/
@[simp] theorem bitPoly_xor (m n : ℕ) : bitPoly (m ^^^ n) = bitPoly m + bitPoly n := by
  ext i
  rw [coeff_add, coeff_bitPoly, coeff_bitPoly, coeff_bitPoly, Nat.testBit_xor]
  cases m.testBit i <;> cases n.testBit i <;> decide

@[simp] theorem bitPoly_shiftLeft (n k : ℕ) : bitPoly (n <<< k) = bitPoly n * X ^ k := by
  ext i
  rw [coeff_mul_X_pow', coeff_bitPoly, coeff_bitPoly, Nat.testBit_shiftLeft]
  by_cases hik : k ≤ i <;> simp [hik]

theorem degree_bitPoly_lt_iff {n k : ℕ} : (bitPoly n).degree < k ↔ n < 2 ^ k := by
  rw [degree_lt_iff_coeff_zero]
  constructor
  · exact fun h => Nat.lt_pow_two_of_testBit n fun i hi => by simpa [coeff_bitPoly] using h i hi
  · intro h i hi
    have hbit : n.testBit i = false := Nat.testBit_eq_false_of_lt (h.trans_le (Nat.pow_le_pow_right two_pos hi))
    rw [coeff_bitPoly, hbit]
    rfl

/-- Every polynomial over GF(2) is a number's. -/
theorem bitPoly_surjective : Function.Surjective bitPoly := by
  intro f
  induction f using Polynomial.induction_on' with
  | add f g hf hg =>
    obtain ⟨m, rfl⟩ := hf
    obtain ⟨n, rfl⟩ := hg
    exact ⟨m ^^^ n, bitPoly_xor m n⟩
  | monomial k c =>
    obtain rfl | rfl : c = 0 ∨ c = 1 := by revert c; decide
    · exact ⟨0, by simp⟩
    · exact ⟨1 <<< k, by simp [X_pow_eq_monomial]⟩

@[simp] theorem bitPoly_eq_zero_iff {n : ℕ} : bitPoly n = 0 ↔ n = 0 := bitPoly_injective.eq_iff' bitPoly_zero

theorem natDegree_bitPoly (n : ℕ) : (bitPoly n).natDegree = n.log2 := by
  obtain rfl | hn := eq_or_ne n 0
  · simp
  · refine eq_of_forall_gt_iff fun k => ?_
    rw [natDegree_lt_iff_degree_lt (bitPoly_eq_zero_iff.not.mpr hn), degree_bitPoly_lt_iff, Nat.log2_lt hn]

theorem degree_bitPoly {n : ℕ} (hn : n ≠ 0) : (bitPoly n).degree = n.log2 := by
  rw [degree_eq_natDegree (bitPoly_eq_zero_iff.not.mpr hn), natDegree_bitPoly]

theorem monic_bitPoly {n : ℕ} (hn : n ≠ 0) : (bitPoly n).Monic := by
  rw [Monic, leadingCoeff, natDegree_bitPoly, coeff_bitPoly, if_pos (Nat.testBit_log2 hn)]

theorem isUnit_bitPoly_iff {n : ℕ} : IsUnit (bitPoly n) ↔ n = 1 := by
  constructor
  · intro h
    have hn : n ≠ 0 := bitPoly_eq_zero_iff.not.mp h.ne_zero
    have hdeg : n.log2 < 1 := by rw [← natDegree_bitPoly, natDegree_eq_zero_of_isUnit h]; exact one_pos
    rw [Nat.log2_lt hn] at hdeg
    omega
  · rintro rfl
    rw [bitPoly_one]
    exact isUnit_one

/-! ### Remainders -/

/-- The remainder, on division by `a`, of a `q` with at most `k` bits more than it: the second loop of `MUL` in R121,
for every divisor. -/
def polyMod (a : ℕ) : ℕ → ℕ → ℕ
  | 0, q => q
  | k + 1, q => polyMod a k (if q.testBit (a.log2 + k) then q ^^^ a <<< k else q)

theorem dvd_bitPoly_polyMod_sub (a k q : ℕ) : bitPoly a ∣ bitPoly (polyMod a k q) - bitPoly q := by
  induction k generalizing q with
  | zero => simp [polyMod]
  | succ k ih =>
    rw [polyMod]
    split_ifs
    · have h := (ih (q ^^^ a <<< k)).add (Dvd.intro _ rfl : bitPoly a ∣ bitPoly a * X ^ k)
      rwa [bitPoly_xor, bitPoly_shiftLeft, sub_add, add_sub_cancel_right] at h
    · exact ih q

theorem polyMod_lt {a : ℕ} (ha : a ≠ 0) {k q : ℕ} (hq : q < 2 ^ (a.log2 + k)) : polyMod a k q < 2 ^ a.log2 := by
  induction k generalizing q with
  | zero => exact hq
  | succ k ih =>
    refine ih (Nat.lt_pow_two_of_testBit _ fun i hi => ?_)
    obtain rfl | hlt := hi.eq_or_lt
    · split_ifs with hbit
      · simp [hbit, Nat.testBit_log2 ha]
      · simpa using hbit
    · have hqi : q.testBit i = false := Nat.testBit_eq_false_of_lt (hq.trans_le (Nat.pow_le_pow_right two_pos hlt))
      have hai : a.testBit (i - k) = false :=
        Nat.testBit_eq_false_of_lt (Nat.lt_log2_self.trans_le (Nat.pow_le_pow_right two_pos (by omega)))
      split_ifs <;> simp [hqi, hai]

/-- A remainder is 0 exactly when the division has none. -/
theorem polyMod_eq_zero_iff {a : ℕ} (ha : a ≠ 0) {k q : ℕ} (hq : q < 2 ^ (a.log2 + k)) :
    polyMod a k q = 0 ↔ bitPoly a ∣ bitPoly q := by
  have hdvd := dvd_bitPoly_polyMod_sub a k q
  constructor
  · intro h
    rwa [h, bitPoly_zero, zero_sub, dvd_neg] at hdvd
  · intro h
    refine bitPoly_eq_zero_iff.mp (eq_zero_of_dvd_of_degree_lt ((dvd_sub_left h).mp hdvd) ?_)
    rw [degree_bitPoly ha, degree_bitPoly_lt_iff]
    exact polyMod_lt ha hq

/-! ### The product of bytes and its reduction -/

/-- No bit is lost when the shifted value still fits. -/
theorem toNat_setWidth_shiftLeft {w : ℕ} (b : BitVec w) {v k : ℕ} (h : w + k ≤ v) :
    (b.setWidth v <<< k).toNat = b.toNat <<< k := by
  rw [BitVec.toNat_shiftLeft, BitVec.toNat_setWidth_of_le (by omega), Nat.mod_eq_of_lt]
  calc b.toNat <<< k = b.toNat * 2 ^ k := Nat.shiftLeft_eq _ _
    _ < 2 ^ w * 2 ^ k := Nat.mul_lt_mul_of_pos_right b.isLt (Nat.two_pow_pos k)
    _ ≤ 2 ^ v := by rw [← pow_add]; exact Nat.pow_le_pow_right two_pos h

/-- `clmul` is the product of polynomials. -/
theorem bitPoly_clmul (a b : Byte) : bitPoly (clmul a b).toNat = bitPoly a.toNat * bitPoly b.toNat := by
  have hstep (q : BitVec 15) {i : ℕ} (hi : i ≤ 7) :
      bitPoly (if b.getLsbD i then q ^^^ (a.setWidth 15 <<< i) else q).toNat =
        bitPoly q.toNat + bitPoly a.toNat * (if b.getLsbD i then X ^ i else 0) := by
    split_ifs <;> simp [toNat_setWidth_shiftLeft a (show 8 + i ≤ 15 by omega)]
  rw [bitPoly_eq_sum_range b.isLt, clmul]
  simp only [List.foldl, hstep, Nat.reduceLeDiff]
  simp [Finset.sum_range_succ, mul_add, BitVec.getLsbD]

/-- A POLY with bit 8 has degree 8 (R5). -/
theorem log2_toNat_of_bit8 {p : Poly} (hp : p.getLsbD 8 = true) : p.toNat.log2 = 8 := by
  have hle : 2 ^ 8 ≤ p.toNat := Nat.ge_two_pow_of_testBit hp
  exact (Nat.log2_eq_iff (by omega)).mpr ⟨hle, p.isLt⟩

theorem toNat_ne_zero_of_bit8 {p : Poly} (hp : p.getLsbD 8 = true) : p.toNat ≠ 0 := by
  intro h
  simp [BitVec.getLsbD, h] at hp

theorem not_isUnit_of_bit8 {p : Poly} (hp : p.getLsbD 8 = true) : ¬ IsUnit (bitPoly p.toNat) := fun h => by
  have hlog := log2_toNat_of_bit8 hp
  rw [isUnit_bitPoly_iff.mp h] at hlog
  exact absurd hlog (by decide)

/-- The reduction of R121 is the remainder on division by POLY. -/
theorem toNat_gfReduce {p : Poly} (hp : p.getLsbD 8 = true) (q : BitVec 15) :
    (gfReduce p q).toNat = polyMod p.toNat 7 q.toNat := by
  have hlog := log2_toNat_of_bit8 hp
  have hstep (q : BitVec 15) {k : ℕ} (hk : k ≤ 6) :
      polyMod p.toNat (k + 1) q.toNat = polyMod p.toNat k (reduceStep p q (8 + k)).toNat := by
    rw [polyMod, reduceStep, Nat.add_sub_cancel_left, hlog]
    split_ifs <;> simp_all [BitVec.getLsbD, toNat_setWidth_shiftLeft p (show 9 + k ≤ 15 by omega)]
  have hlt : polyMod p.toNat 7 q.toNat < 2 ^ 8 := by
    have := polyMod_lt (toNat_ne_zero_of_bit8 hp) (k := 7) (q := q.toNat) (by rw [hlog]; exact q.isLt)
    rwa [hlog] at this
  rw [← Nat.mod_eq_of_lt hlt, gfReduce, BitVec.toNat_setWidth, hstep q (by omega), hstep _ (by omega),
    hstep _ (by omega), hstep _ (by omega), hstep _ (by omega), hstep _ (by omega), hstep _ (by omega)]
  rfl

/-! ### Legal polynomials -/

/-- For a POLY with bit 8, R122's list is what trial division by every polynomial of degree 1 to 4 leaves. -/
theorem legalPoly_iff_no_small_divisor : ∀ p : Poly, p.getLsbD 8 = true →
    (Config.legalPoly p = true ↔ ∀ a < 32, 2 ≤ a → polyMod a 8 p.toNat ≠ 0) := by decide +kernel

theorem bit8_of_legalPoly {p : Poly} (h : Config.legalPoly p = true) : p.getLsbD 8 = true := by
  have hall : ∀ q ∈ Config.legalPolys, q.getLsbD 8 = true := by decide
  exact hall p (List.contains_iff_mem.mp h)

/-- A polynomial of degree 8 is irreducible when no polynomial of degree 1 to 4 divides it. -/
theorem irreducible_iff_no_small_divisor {p : Poly} (hp : p.getLsbD 8 = true) :
    Irreducible (bitPoly p.toNat) ↔ ∀ a < 32, 2 ≤ a → polyMod a 8 p.toNat ≠ 0 := by
  have hlog := log2_toNat_of_bit8 hp
  have hp0 := toNat_ne_zero_of_bit8 hp
  have hmod {a : ℕ} (ha : 2 ≤ a) : polyMod a 8 p.toNat = 0 ↔ bitPoly a ∣ bitPoly p.toNat := by
    have hlog1 : 1 ≤ a.log2 := (Nat.le_log2 (by omega)).mpr ha
    exact polyMod_eq_zero_iff (by omega) (p.isLt.trans_le (Nat.pow_le_pow_right two_pos (by omega)))
  have hsmall {a : ℕ} (ha : a ≠ 0) : a.log2 ∈ Finset.Ioc 0 (8 / 2) ↔ 2 ≤ a ∧ a < 32 := by
    have hlo : 1 ≤ a.log2 ↔ 2 ≤ a := Nat.le_log2 ha
    have hhi : a.log2 < 5 ↔ a < 32 := Nat.log2_lt ha
    rw [Finset.mem_Ioc]
    omega
  rw [irreducible_iff_lt_natDegree_lt (bitPoly_eq_zero_iff.not.mpr hp0) (not_isUnit_of_bit8 hp), natDegree_bitPoly,
    hlog]
  constructor
  · intro h a hlt ha hzero
    have ha0 : a ≠ 0 := by omega
    exact h _ (monic_bitPoly ha0) (by rw [natDegree_bitPoly]; exact (hsmall ha0).mpr ⟨ha, hlt⟩) ((hmod ha).mp hzero)
  · intro h q hq hdeg hdvd
    obtain ⟨a, rfl⟩ := bitPoly_surjective q
    rw [natDegree_bitPoly, hsmall (bitPoly_eq_zero_iff.not.mp hq.ne_zero)] at hdeg
    exact h a hdeg.2 hdeg.1 ((hmod hdeg.1).mpr hdvd)

theorem legalPoly_iff_irreducible {p : Poly} (hp : p.getLsbD 8 = true) :
    Config.legalPoly p = true ↔ Irreducible (bitPoly p.toNat) :=
  (legalPoly_iff_no_small_divisor p hp).trans (irreducible_iff_no_small_divisor hp).symm

theorem irreducible_of_legalPoly {p : Poly} (h : Config.legalPoly p = true) : Irreducible (bitPoly p.toNat) :=
  (legalPoly_iff_irreducible (bit8_of_legalPoly h)).mp h

/-- A factorization of POLY into polynomials of lower degree is one into bytes. -/
theorem exists_byte_factors {p : Poly} (hp : p.getLsbD 8 = true) {f g : (ZMod 2)[X]} (hfg : bitPoly p.toNat = f * g)
    (hf : ¬ IsUnit f) (hg : ¬ IsUnit g) :
    ∃ a b : Byte, 2 ≤ a.toNat ∧ 2 ≤ b.toNat ∧ clmul a b = p.setWidth 15 := by
  obtain ⟨m, rfl⟩ := bitPoly_surjective f
  obtain ⟨n, rfl⟩ := bitPoly_surjective g
  have hmul : bitPoly m * bitPoly n ≠ 0 := hfg ▸ bitPoly_eq_zero_iff.not.mpr (toNat_ne_zero_of_bit8 hp)
  obtain ⟨hm0, hn0⟩ := mul_ne_zero_iff.mp hmul
  have hm := bitPoly_eq_zero_iff.not.mp hm0
  have hn := bitPoly_eq_zero_iff.not.mp hn0
  rw [isUnit_bitPoly_iff] at hf hg
  have hdeg : m.log2 + n.log2 = 8 := by
    rw [← log2_toNat_of_bit8 hp, ← natDegree_bitPoly p.toNat, hfg, natDegree_mul hm0 hn0, natDegree_bitPoly,
      natDegree_bitPoly]
  have hm1 : 1 ≤ m.log2 := (Nat.le_log2 hm).mpr (by omega)
  have hn1 : 1 ≤ n.log2 := (Nat.le_log2 hn).mpr (by omega)
  have hm8 : m < 2 ^ 8 := (Nat.log2_lt hm).mp (by omega)
  have hn8 : n < 2 ^ 8 := (Nat.log2_lt hn).mp (by omega)
  refine ⟨BitVec.ofNatLT m hm8, BitVec.ofNatLT n hn8, by rw [BitVec.toNat_ofNatLT]; omega,
    by rw [BitVec.toNat_ofNatLT]; omega, BitVec.eq_of_toNat_eq (bitPoly_injective ?_)⟩
  rw [bitPoly_clmul, BitVec.toNat_setWidth_of_le (by omega), hfg, BitVec.toNat_ofNatLT, BitVec.toNat_ofNatLT]

theorem irreducible_iff_no_byte_factors {p : Poly} (hp : p.getLsbD 8 = true) : Irreducible (bitPoly p.toNat) ↔
    ∀ a b : Byte, 2 ≤ a.toNat → 2 ≤ b.toNat → clmul a b ≠ p.setWidth 15 := by
  constructor
  · intro h a b ha hb hab
    have hmul : bitPoly p.toNat = bitPoly a.toNat * bitPoly b.toNat := by
      rw [← bitPoly_clmul, hab, BitVec.toNat_setWidth_of_le (by omega)]
    have hunit := h.isUnit_or_isUnit hmul
    rw [isUnit_bitPoly_iff, isUnit_bitPoly_iff] at hunit
    omega
  · refine fun h => ⟨not_isUnit_of_bit8 hp, fun f g hfg => ?_⟩
    by_contra hfactors
    obtain ⟨hf, hg⟩ := not_or.mp hfactors
    obtain ⟨a, b, ha, hb, hab⟩ := exists_byte_factors hp hfg hf hg
    exact h a b ha hb hab

/-! ### The bytes in the field GF(2)[X] / (POLY) -/

/-- The class of the byte `b` modulo POLY. -/
noncomputable def byteClass (p : Poly) (b : Byte) : AdjoinRoot (bitPoly p.toNat) :=
  AdjoinRoot.mk _ (bitPoly b.toNat)

@[simp] theorem byteClass_zero (p : Poly) : byteClass p 0 = 0 := by simp [byteClass]

@[simp] theorem byteClass_one (p : Poly) : byteClass p 1 = 1 := by simp [byteClass]

@[simp] theorem byteClass_xor (p : Poly) (a b : Byte) : byteClass p (a ^^^ b) = byteClass p a + byteClass p b := by
  simp [byteClass]

theorem byteClass_gfMul {p : Poly} (hp : p.getLsbD 8 = true) (a b : Byte) :
    byteClass p (gfMul p a b) = byteClass p a * byteClass p b := by
  rw [byteClass, gfMul, toNat_gfReduce hp, AdjoinRoot.mk_eq_mk.mpr (dvd_bitPoly_polyMod_sub _ _ _), bitPoly_clmul,
    map_mul, byteClass, byteClass]

theorem byteClass_injective {p : Poly} (hp : p.getLsbD 8 = true) : Function.Injective (byteClass p) := by
  intro a b h
  rw [byteClass, byteClass, AdjoinRoot.mk_eq_mk, CharTwo.sub_eq_add, ← bitPoly_xor, ← BitVec.toNat_xor] at h
  have hdeg : (bitPoly (a ^^^ b).toNat).degree < (bitPoly p.toNat).degree := by
    rw [degree_bitPoly (toNat_ne_zero_of_bit8 hp), log2_toNat_of_bit8 hp, degree_bitPoly_lt_iff]
    exact (a ^^^ b).isLt
  have hxor : (a ^^^ b).toNat = 0 := bitPoly_eq_zero_iff.mp (eq_zero_of_dvd_of_degree_lt h hdeg)
  exact BitVec.xor_eq_zero_iff.mp (BitVec.eq_of_toNat_eq hxor)

theorem byteClass_gfSquares {p : Poly} (hp : p.getLsbD 8 = true) (x : Byte) (k : ℕ) :
    byteClass p (gfSquares p x k) = byteClass p x ^ 2 ^ k := by
  induction k with
  | zero => rw [gfSquares, pow_zero, pow_one]
  | succ k ih => rw [gfSquares, byteClass_gfMul hp, ih, ← sq, ← pow_mul, ← pow_succ]

/-- `INV` is the power 254 (R123). -/
theorem byteClass_gfInv {p : Poly} (hp : p.getLsbD 8 = true) (x : Byte) :
    byteClass p (gfInv p x) = byteClass p x ^ 254 := by
  simp only [gfInv, List.foldl, byteClass_gfMul hp, byteClass_gfSquares hp, byteClass_one, one_mul]
  ring

theorem byteClass_power {p : Poly} (hp : p.getLsbD 8 = true) (x : Byte) (n : ℕ) :
    byteClass p (forUp n (fun _ acc => gfMul p acc x) 1) = byteClass p x ^ n := by
  induction n with
  | zero => rw [forUp_zero, byteClass_one, pow_zero]
  | succ n ih => rw [forUp_succ, byteClass_gfMul hp, ih, pow_succ]

/-! ### Laws for every POLY with bit 8 -/

section
variable {p : Poly} (hp : p.getLsbD 8 = true)
include hp

theorem gfMul_comm (a b : Byte) : gfMul p a b = gfMul p b a :=
  byteClass_injective hp (by simp only [byteClass_gfMul hp, mul_comm])

theorem gfMul_assoc (a b c : Byte) : gfMul p (gfMul p a b) c = gfMul p a (gfMul p b c) :=
  byteClass_injective hp (by simp only [byteClass_gfMul hp, mul_assoc])

theorem gfMul_xor (a b c : Byte) : gfMul p a (b ^^^ c) = gfMul p a b ^^^ gfMul p a c :=
  byteClass_injective hp (by simp only [byteClass_gfMul hp, byteClass_xor, mul_add])

theorem gfMul_zero (a : Byte) : gfMul p a 0 = 0 :=
  byteClass_injective hp (by rw [byteClass_gfMul hp, byteClass_zero, mul_zero])

theorem zero_gfMul (a : Byte) : gfMul p 0 a = 0 := by rw [gfMul_comm hp, gfMul_zero hp]

theorem one_gfMul (a : Byte) : gfMul p 1 a = a :=
  byteClass_injective hp (by rw [byteClass_gfMul hp, byteClass_one, one_mul])

theorem byteClass_eq_zero_iff {a : Byte} : byteClass p a = 0 ↔ a = 0 :=
  (byteClass_injective hp).eq_iff' (byteClass_zero p)

/-- `INV` as the power it is defined by, multiplied out (R123). -/
theorem gfInv_eq_power (x : Byte) : gfInv p x = forUp 254 (fun _ acc => gfMul p acc x) 1 :=
  byteClass_injective hp (by rw [byteClass_gfInv hp, byteClass_power hp])

theorem card_adjoinRoot : Nat.card (AdjoinRoot (bitPoly p.toNat)) = 256 := by
  have h0 := bitPoly_eq_zero_iff.not.mpr (toNat_ne_zero_of_bit8 hp)
  have hfin := (AdjoinRoot.powerBasis h0).finite
  rw [Module.natCard_eq_pow_finrank (K := ZMod 2), Nat.card_zmod, (AdjoinRoot.powerBasis h0).finrank,
    AdjoinRoot.powerBasis_dim, natDegree_bitPoly, log2_toNat_of_bit8 hp]
  rfl

end

/-! ### Laws for every legal POLY -/

section
variable {p : Poly} (hp : Config.legalPoly p = true)
include hp

theorem fact_irreducible : Fact (Irreducible (bitPoly p.toNat)) := ⟨irreducible_of_legalPoly hp⟩

/-- In a field of 256 elements x^254 is the inverse of x, and 0 for x = 0. -/
theorem byteClass_gfInv_eq_inv [Fact (Irreducible (bitPoly p.toNat))] (x : Byte) :
    byteClass p (gfInv p x) = (byteClass p x)⁻¹ := by
  have hbit := bit8_of_legalPoly hp
  rw [byteClass_gfInv hbit]
  obtain hx | hx := eq_or_ne (byteClass p x) 0
  · simp [hx]
  · have hcard := card_adjoinRoot hbit
    have : Finite (AdjoinRoot (bitPoly p.toNat)) := Nat.finite_of_card_ne_zero (by rw [hcard]; decide)
    have := Fintype.ofFinite (AdjoinRoot (bitPoly p.toNat))
    have hpow := FiniteField.pow_card_sub_one_eq_one _ hx
    rw [Fintype.card_eq_nat_card, hcard] at hpow
    exact eq_inv_of_mul_eq_one_left ((pow_succ _ _).symm.trans hpow)

theorem gfMul_eq_zero_iff {a b : Byte} : gfMul p a b = 0 ↔ a = 0 ∨ b = 0 := by
  have hbit := bit8_of_legalPoly hp
  have := fact_irreducible hp
  rw [← byteClass_eq_zero_iff hbit, byteClass_gfMul hbit, mul_eq_zero, byteClass_eq_zero_iff hbit,
    byteClass_eq_zero_iff hbit]

/-- `DIV(a, b)` is the only quotient (R124). -/
theorem gfMul_eq_iff_eq_gfDiv {a b q : Byte} (hb : b ≠ 0) : gfMul p q b = a ↔ q = gfDiv p a b := by
  have hbit := bit8_of_legalPoly hp
  have := fact_irreducible hp
  have hb' : byteClass p b ≠ 0 := (byteClass_eq_zero_iff hbit).not.mpr hb
  rw [← (byteClass_injective hbit).eq_iff, ← (byteClass_injective hbit).eq_iff (a := q), gfDiv,
    byteClass_gfMul hbit, byteClass_gfMul hbit, byteClass_gfInv_eq_inv hp, eq_mul_inv_iff_mul_eq₀ hb']

/-- `INV(x)` is the only inverse (R123). -/
theorem gfMul_eq_one_iff {x y : Byte} (hx : x ≠ 0) : gfMul p x y = 1 ↔ y = gfInv p x := by
  have hbit := bit8_of_legalPoly hp
  rw [gfMul_comm hbit, gfMul_eq_iff_eq_gfDiv hp hx, gfDiv, one_gfMul hbit]

theorem gfMul_gfInv {x : Byte} (hx : x ≠ 0) : gfMul p x (gfInv p x) = 1 := (gfMul_eq_one_iff hp hx).mpr rfl

theorem gfInv_ne_zero {x : Byte} (hx : x ≠ 0) : gfInv p x ≠ 0 := fun h => by
  have hone := gfMul_gfInv hp hx
  rw [h, gfMul_zero (bit8_of_legalPoly hp)] at hone
  exact absurd hone (by decide)

/-- A table of 256 bytes is INVTAB when it holds 0 at 0 and an inverse at every other place (R41). -/
theorem map_invtab_eq {T : List Byte} (hlen : T.length = 256) (hzero : T.getD 0 0 = 0)
    (hinv : ∀ x < 256, x ≠ 0 → gfMul p (BitVec.ofNat 8 x) (T.getD x 0) = 1) :
    (List.range 256).map (fun x => invtab p (BitVec.ofNat 8 x)) = T := by
  refine List.ext_getElem (by simp [hlen]) fun x hx hxT => ?_
  have hxlt : x < 256 := hlen ▸ hxT
  have hget : T.getD x 0 = T[x] := by simp [hxT]
  rw [List.getElem_map, List.getElem_range, ← hget]
  obtain rfl | hx0 := eq_or_ne x 0
  · exact hzero.symm
  · have hne : BitVec.ofNat 8 x ≠ 0 := fun h => hx0 (by simpa [Nat.mod_eq_of_lt hxlt] using congrArg BitVec.toNat h)
    rw [invtab, if_neg hne]
    exact ((gfMul_eq_one_iff hp hne).mp (hinv x hxlt hx0)).symm

end

end Sys2Proof.Machine

namespace Sys2Proof.Proofs

open Sys2Proof.Machine

/-- Settles O32: the laws of the field in which the bytes lie. -/
theorem fieldLawsHold : Obligations.FieldLawsHold := by
  intro p hp
  have hbit := bit8_of_legalPoly hp
  refine ⟨fun x => ⟨zero_gfMul hbit x, gfMul_zero hbit x, one_gfMul hbit x⟩, gfMul_comm hbit,
    fun a b c => (gfMul_assoc hbit a b c).symm, gfMul_xor hbit, fun _ => gfMul_gfInv hp, fun a b hb => ?_,
    fun _ _ => (gfMul_eq_zero_iff hp).mp⟩
  exact ((gfMul_eq_iff_eq_gfDiv hp hb).mp rfl).symm

/-- Settles O33: the only inverse, and the same power of x multiplied out. -/
theorem inverseIsUniqueAndIsThePower254 : Obligations.InverseIsUniqueAndIsThePower254 := by
  intro p hp
  have hbit := bit8_of_legalPoly hp
  refine ⟨fun y h => ?_, fun x hx => ⟨gfInv_ne_zero hp hx, gfMul_gfInv hp hx, fun _ => (gfMul_eq_one_iff hp hx).mp,
    gfInv_eq_power hbit x, if_neg hx⟩⟩
  rw [zero_gfMul hbit] at h
  exact absurd h (by decide)

/-- Settles O34: both sides say that POLY has degree 8 and is irreducible. -/
theorem legalPolynomialsAreTheIrreducibleOnes : Obligations.LegalPolynomialsAreTheIrreducibleOnes := by
  intro p
  constructor
  · intro h
    have hbit := bit8_of_legalPoly h
    exact ⟨hbit, (irreducible_iff_no_byte_factors hbit).mp (irreducible_of_legalPoly h)⟩
  · rintro ⟨hbit, hno⟩
    exact (legalPoly_iff_irreducible hbit).mpr ((irreducible_iff_no_byte_factors hbit).mpr hno)

/-- Settles O37: the only quotient, the divisor's inverse read from INVTAB. -/
theorem gdivGivesTheQuotientOrDomainError : Obligations.GdivGivesTheQuotientOrDomainError := by
  intro a b s
  refine ⟨fun hb => if_pos hb, fun hb hp => ⟨gfDiv s.poly a b, ?_, fun q => gfMul_eq_iff_eq_gfDiv hp hb⟩⟩
  have hinv : invtab s.poly b = gfInv s.poly b := if_neg hb
  rw [gfDiv, ← hinv]
  exact if_neg hb

/-- Settles O38: the only inverse, read from INVTAB. -/
theorem ginvGivesTheInverseOrDomainError : Obligations.GinvGivesTheInverseOrDomainError := by
  intro x s
  refine ⟨fun hx => if_pos hx, fun hx hp => ⟨gfInv s.poly x, ?_, fun y => gfMul_eq_one_iff hp hx⟩⟩
  have hinv : invtab s.poly x = gfInv s.poly x := if_neg hx
  rw [← hinv]
  exact if_neg hx

/-- Settles O35: each entry but the first is an inverse, and inverses are unique. -/
theorem invtabHoldsTheStatedTable : Obligations.InvtabHoldsTheStatedTable :=
by
  unfold Obligations.InvtabHoldsTheStatedTable
  refine map_invtab_eq (by decide) ?length ?zero ?inverses
  case length => decide +kernel
  case zero => decide +kernel
  case inverses => decide +kernel

/-- Settles O36: GMUL is `Complete` with the product. -/
theorem gmulGivesTheProduct : Obligations.GmulGivesTheProduct := fun _ _ _ => rfl

end Sys2Proof.Proofs
end

section
/-! PROOFS. EVAL and HEVAL as XOR-sums of products (42_solver.md R140, R141). -/

namespace Sys2Proof.Machine

/-! ### Sums of products -/

theorem xorSum_succ (n : ℕ) (f : ℕ → Byte) : xorSum (n + 1) f = xorSum n f ^^^ f n := by
  have hinit (l : List Byte) : l.foldr (· ^^^ ·) (0 ^^^ f n) = l.foldr (· ^^^ ·) 0 ^^^ f n := List.foldr_assoc
  rw [xorSum, xorSum, List.range_succ, List.map_append, List.foldr_append, ← hinit]
  exact congrArg (fun a => List.foldr _ a _) (BitVec.xor_comm _ _)

/-- The loop of DOT (R140) sums what its passes add. -/
theorem forUp_xor_eq_xorSum (n : ℕ) (f : ℕ → Byte) : forUp n (fun i acc => acc ^^^ f i) 0 = xorSum n f := by
  induction n with
  | zero => rfl
  | succ n ih => rw [forUp_succ, ih, xorSum_succ]

theorem dot_eq_xorSum (poly : Poly) (m : Memory) (ra rb n : ℕ) :
    dot poly m ra rb n = xorSum n fun i => gfMul poly (m.mat ra i) (m.mat rb i) :=
  forUp_xor_eq_xorSum n _

theorem xorSum_eq_first {n : ℕ} {f : ℕ → Byte} (h : ∀ i, 1 ≤ i → i < n + 1 → f i = 0) : xorSum (n + 1) f = f 0 := by
  induction n with
  | zero => simp [xorSum]
  | succ n ih =>
    rw [xorSum_succ, ih fun i hlo hhi => h i hlo (hhi.trans (Nat.lt_succ_self _)), h (n + 1) (by omega) (by omega)]
    exact BitVec.xor_zero

/-- A product with 0 is 0 modulo any POLY, legal or not. -/
theorem gfMul_zero_right (poly : Poly) (a : Byte) : gfMul poly a 0 = 0 := by
  simp [gfMul, gfReduce, clmul, reduceStep]

end Sys2Proof.Machine

namespace Sys2Proof.Proofs

open Sys2Proof.Machine

/-- Settles O39: the loop of DOT is the sum. -/
theorem evalGivesTheInnerProduct : Obligations.EvalGivesTheInnerProduct := by
  intro ra rb n s
  rw [← dot_eq_xorSum]
  rfl

/-- Settles O40: HDOT is DOT of n - 1 elements and one element more. -/
theorem hevalGivesTheHyperplaneForm : Obligations.HevalGivesTheHyperplaneForm := by
  intro ra rb n s
  refine ⟨?_, fun hn => ?_⟩
  · rintro rfl
    rfl
  · have hn0 : n.toNat ≠ 0 := fun h => hn (BitVec.eq_of_toNat_eq h)
    have hdot : hdot s.poly s.mem ra.toNat rb.toNat n.toNat = _ := if_neg hn0
    rw [← dot_eq_xorSum, ← hdot]
    rfl

/-- Settles O41: of the products only `MUL(c_0, v)` is not 0, and neither is the target point's last element. -/
theorem hevalAcceptsAShareRow : Obligations.HevalAcceptsAShareRow := by
  intro ra rb n v s hn hrow hv hzero
  obtain ⟨k, hk⟩ : ∃ k, n.toNat = k + 2 := ⟨n.toNat - 2, by omega⟩
  have hproducts : xorSum (n.toNat - 1) (fun i => gfMul s.poly (s.mem.mat ra.toNat i) (s.mem.mat rb.toNat i)) =
      gfMul s.poly (s.mem.mat ra.toNat 0) v := by
    rw [hk, Nat.add_succ_sub_one, xorSum_eq_first fun i hlo hhi => ?_, hv]
    rw [hzero i hlo (by omega), gfMul_zero_right]
  have hn0 : n ≠ 0 := by rintro rfl; exact absurd hn (by decide)
  rw [(hevalGivesTheHyperplaneForm ra rb n s).2 hn0, hproducts, hzero (n.toNat - 1) (by omega) (by omega), hrow]
  exact congrArg (fun w => Host.Outcome.next (s.okEnd w)) BitVec.xor_zero

end Sys2Proof.Proofs
end

section
/-! PROOFS. The elimination of a system (42_solver.md R142 to R148) over the field GF(2)[X] / (POLY): the checks before
it, its steps as row operations that keep the solutions, the columns they reduce, and the two ends it can come to. -/

namespace Sys2Proof.Machine

/-! ### The checks of R143 -/

theorem lowest_eq_some_of {n i : ℕ} {f : ℕ → Bool} (hi : i < n) (hf : f i = true) (hlow : ∀ j, j < i → f j = false) :
    lowest n f = some i :=
  List.find?_range_eq_some.mpr ⟨hf, List.mem_range.mpr hi, fun j hj => by simp [hlow j hj]⟩

section
variable {m : Memory} {d : Byte}

theorem checkDims_of_rows_ne {r : Byte} (c : Byte) (h : r ≠ d) : checkDims m d r c = some (.dimRows r) := if_pos h

theorem checkDims_of_rowlen_ne {i : Byte} (c : Byte) (hi : i.toNat < d.toNat) (hne : m.rowlen i.toNat ≠ d)
    (hlow : ∀ j, j < i.toNat → m.rowlen j = d) : checkDims m d d c = some (.dimRowlen i) := by
  have hrow : lowest d.toNat (fun i => m.rowlen i != d) = some i.toNat :=
    lowest_eq_some_of hi (bne_iff_ne.mpr hne) fun j hj => bne_eq_false_iff_eq.mpr (hlow j hj)
  simp [checkDims, hrow]

/-- With every row of length D the checks left are those of C and of D itself. -/
theorem checkDims_of_rowlens (c : Byte) (hrow : ∀ j, j < d.toNat → m.rowlen j = d) :
    checkDims m d d c = if c ≠ d then some (.dimConsts c) else if d = 0 then some .degZero else none := by
  have hnone : lowest d.toNat (fun i => m.rowlen i != d) = none :=
    lowest_eq_none.mpr fun j hj => bne_eq_false_iff_eq.mpr (hrow j hj)
  simp [checkDims, hnone]

theorem checkDims_eq_none (hd : d ≠ 0) (hrow : ∀ j, j < d.toNat → m.rowlen j = d) : checkDims m d d d = none := by
  rw [checkDims_of_rowlens d hrow, if_neg (not_not.mpr rfl), if_neg hd]

/-- Every failure of the checks is an E_DIM (R211). -/
theorem ecode_of_checkDims {r c : Byte} {e : Cause} (h : checkDims m d r c = some e) : e.err.ecode = 2 := by
  simp only [checkDims] at h
  split_ifs at h
  · cases h; rfl
  all_goals
    split at h
    · cases h; rfl
    · cases h <;> rfl

end

/-! ### Linear equations over the field -/

theorem byteClass_xorSum (p : Poly) (n : ℕ) (f : ℕ → Byte) :
    byteClass p (xorSum n f) = ∑ i ∈ Finset.range n, byteClass p (f i) := by
  induction n with
  | zero => exact byteClass_zero p
  | succ n ih => rw [xorSum_succ, byteClass_xor, ih, Finset.sum_range_succ]

theorem byteClass_add_self (p : Poly) (a : Byte) : byteClass p a + byteClass p a = 0 := by
  rw [← byteClass_xor, BitVec.xor_self]
  exact byteClass_zero p

/-- By how much `x` misses equation `r` of the system in MAT and CONST, its constants multiplied by `t`: 1 for the
system itself and 0 for its homogeneous system. -/
noncomputable def residual (p : Poly) (d : ℕ) (m : Memory) (t : AdjoinRoot (bitPoly p.toNat)) (x : ℕ → Byte) (r : ℕ) :
    AdjoinRoot (bitPoly p.toNat) :=
  ∑ c ∈ Finset.range d, byteClass p (m.mat r c) * byteClass p (x c) - t * byteClass p (m.const r)

/-- `x` solves the system with its constants multiplied by `t`. -/
def Satisfies (p : Poly) (d : ℕ) (m : Memory) (t : AdjoinRoot (bitPoly p.toNat)) (x : ℕ → Byte) : Prop :=
  ∀ r, r < d → residual p d m t x r = 0

/-- The systems in `m` and `m'` have the same solutions, and so have their homogeneous systems. -/
def SameSolutions (p : Poly) (d : ℕ) (m m' : Memory) : Prop := ∀ t x, Satisfies p d m' t x ↔ Satisfies p d m t x

theorem SameSolutions.refl (p : Poly) (d : ℕ) (m : Memory) : SameSolutions p d m m := fun _ _ => Iff.rfl

theorem SameSolutions.trans {p : Poly} {d : ℕ} {m m' m'' : Memory} (h : SameSolutions p d m m')
    (h' : SameSolutions p d m' m'') : SameSolutions p d m m'' := fun t x => (h' t x).trans (h t x)

section
variable {p : Poly} (hp : p.getLsbD 8 = true)
include hp

theorem xorSum_gfMul_eq_iff {d : ℕ} {f g : ℕ → Byte} {k : Byte} : xorSum d (fun c => gfMul p (f c) (g c)) = k ↔
    ∑ c ∈ Finset.range d, byteClass p (f c) * byteClass p (g c) = byteClass p k := by
  simp only [← (byteClass_injective hp).eq_iff, byteClass_xorSum, byteClass_gfMul hp]

theorem solves_iff_satisfies {d : ℕ} {m : Memory} {x : ℕ → Byte} :
    Solves p d m.mat m.const x ↔ Satisfies p d m 1 x := by
  simp only [Solves, Satisfies, residual, xorSum_gfMul_eq_iff hp, one_mul, sub_eq_zero]

theorem solves_zero_iff_satisfies {d : ℕ} {m : Memory} {x : ℕ → Byte} :
    Solves p d m.mat (fun _ => 0) x ↔ Satisfies p d m 0 x := by
  simp only [Solves, Satisfies, residual, xorSum_gfMul_eq_iff hp, byteClass_zero, zero_mul, sub_zero]

theorem SameSolutions.solves_iff {d : ℕ} {m m' : Memory} (h : SameSolutions p d m m') {x : ℕ → Byte} :
    Solves p d m'.mat m'.const x ↔ Solves p d m.mat m.const x := by
  rw [solves_iff_satisfies hp, solves_iff_satisfies hp, h 1 x]

theorem SameSolutions.nonsingular_iff {d : ℕ} {m m' : Memory} (h : SameSolutions p d m m') :
    Nonsingular p d m'.mat ↔ Nonsingular p d m.mat := by
  simp only [Nonsingular, solves_zero_iff_satisfies hp, h 0]

end

/-! ### The steps of the elimination as row operations -/

section
variable {p : Poly} {d piv col : ℕ} {t : AdjoinRoot (bitPoly p.toNat)} {x : ℕ → Byte}

theorem residual_congr {m m' : Memory} {r r' : ℕ} (hmat : ∀ c, c < d → m'.mat r' c = m.mat r c)
    (hconst : m'.const r' = m.const r) : residual p d m' t x r' = residual p d m t x r := by
  rw [residual, residual, hconst]
  exact congrArg (· - _) (Finset.sum_congr rfl fun c hc => by rw [hmat c (Finset.mem_range.mp hc)])

/-- A row that combines two rows stands for the same combination of their equations. -/
theorem residual_of_combination {m m' : Memory} {r a b : ℕ} {u v : AdjoinRoot (bitPoly p.toNat)}
    (hmat : ∀ c, c < d → byteClass p (m'.mat r c) = u * byteClass p (m.mat a c) + v * byteClass p (m.mat b c))
    (hconst : byteClass p (m'.const r) = u * byteClass p (m.const a) + v * byteClass p (m.const b)) :
    residual p d m' t x r = u * residual p d m t x a + v * residual p d m t x b := by
  have hsum : ∑ c ∈ Finset.range d, byteClass p (m'.mat r c) * byteClass p (x c) =
      u * ∑ c ∈ Finset.range d, byteClass p (m.mat a c) * byteClass p (x c) +
        v * ∑ c ∈ Finset.range d, byteClass p (m.mat b c) * byteClass p (x c) := by
    rw [Finset.mul_sum, Finset.mul_sum, ← Finset.sum_add_distrib]
    exact Finset.sum_congr rfl fun c hc => by rw [hmat c (Finset.mem_range.mp hc)]; ring
  rw [residual, residual, residual, hsum, hconst]
  ring

variable (m : Memory) (hd : d ≤ 256)
include hd

/-- The exchange of two rows exchanges their equations (R144). -/
theorem residual_swapRows (hpiv : piv < d) (hcol : col < d) {r : ℕ} (hr : r < d) :
    residual p d (swapRows d piv col m) t x r = residual p d m t x (Equiv.swap piv col r) := by
  refine residual_congr (fun c hc => ?_) ?_
  · rw [swapRows_mat m hd hpiv hcol (hc.trans_le hd), if_pos hc, Equiv.swap_apply_def]
    split_ifs <;> rfl
  · rw [swapRows_const m hd hpiv hcol (hr.trans_le hd), Equiv.swap_apply_def]
    split_ifs <;> rfl

theorem swapRows_sameSolutions (hpiv : piv < d) (hcol : col < d) : SameSolutions p d m (swapRows d piv col m) := by
  have hlt {r : ℕ} (hr : r < d) : Equiv.swap piv col r < d := by
    rw [Equiv.swap_apply_def]; split_ifs <;> assumption
  refine fun t x => ⟨fun h r hr => ?_, fun h r hr => ?_⟩
  · have hrow := h _ (hlt hr)
    rwa [residual_swapRows m hd hpiv hcol (hlt hr), Equiv.swap_apply_self] at hrow
  · rw [residual_swapRows m hd hpiv hcol hr]
    exact h _ (hlt hr)

/-- Normalization divides the pivot row's equation by the pivot (R145). -/
theorem residual_normalize (hp : p.getLsbD 8 = true) (hcol : col < d) {r : ℕ} (hr : r < d) :
    residual p d (normalize p d col m) t x r =
      if r = col then byteClass p (gfInv p (m.mat col col)) * residual p d m t x col else residual p d m t x r := by
  have hmat {c : ℕ} (hc : c < d) := normalize_mat (r := r) p m hd hcol (hc.trans_le hd)
  have hconst := normalize_const p m hd hcol (hr.trans_le hd)
  split_ifs with hrc
  · rw [← add_zero (_ * _), ← zero_mul (residual p d m t x col)]
    refine residual_of_combination (fun c hc => ?_) ?_
    · rw [hmat hc, if_pos ⟨hrc, hc⟩, gfDiv, byteClass_gfMul hp]; ring
    · rw [hconst, if_pos hrc, gfDiv, byteClass_gfMul hp]; ring
  · refine residual_congr (fun c hc => ?_) ?_
    · rw [hmat hc, if_neg fun h => hrc h.1]
    · rw [hconst, if_neg hrc]

theorem normalize_sameSolutions (hp : Config.legalPoly p = true) (hcol : col < d) (hpv : m.mat col col ≠ 0) :
    SameSolutions p d m (normalize p d col m) := by
  have hbit := bit8_of_legalPoly hp
  have hunit : IsUnit (byteClass p (gfInv p (m.mat col col))) := by
    refine .of_mul_eq_one_right (byteClass p (m.mat col col)) ?_
    rw [← byteClass_gfMul hbit, gfMul_gfInv hp hpv]
    exact byteClass_one p
  refine fun t x => forall₂_congr fun r hr => ?_
  rw [residual_normalize m hd hbit hcol hr]
  split_ifs with hrc
  · rw [hunit.mul_right_eq_zero, hrc]
  · rfl

/-- Elimination adds a multiple of the pivot row's equation to each other one (R146). -/
theorem residual_eliminate (hp : p.getLsbD 8 = true) (hcol : col < d) {r : ℕ} (hr : r < d) :
    residual p d (eliminate p d col m) t x r =
      if r = col then residual p d m t x r
      else residual p d m t x r + byteClass p (m.mat r col) * residual p d m t x col := by
  obtain ⟨hmat, hconst⟩ := eliminate_spec p m hd hcol
  split_ifs with hrc
  · refine residual_congr (fun c hc => ?_) ?_
    · rw [hmat r c (hc.trans_le hd), if_neg fun h => h.2.1 hrc]
    · rw [hconst r (hr.trans_le hd), if_neg fun h => h.2 hrc]
  · rw [← one_mul (residual p d m t x r)]
    refine residual_of_combination (fun c hc => ?_) ?_
    · rw [hmat r c (hc.trans_le hd), if_pos ⟨hr, hrc, hc⟩, byteClass_xor, byteClass_gfMul hp, one_mul]
    · rw [hconst r (hr.trans_le hd), if_pos ⟨hr, hrc⟩, byteClass_xor, byteClass_gfMul hp, one_mul]

theorem eliminate_sameSolutions (hp : p.getLsbD 8 = true) (hcol : col < d) :
    SameSolutions p d m (eliminate p d col m) := by
  refine fun t x => ⟨fun h r hr => ?_, fun h r hr => ?_⟩
  · have hpivot := h col hcol
    have hrow := h r hr
    rw [residual_eliminate m hd hp hcol hcol, if_pos rfl] at hpivot
    rwa [residual_eliminate m hd hp hcol hr, hpivot, mul_zero, add_zero, ite_self] at hrow
  · rw [residual_eliminate m hd hp hcol hr, h col hcol, h r hr, mul_zero, add_zero, ite_self]

end

/-! ### Reduced columns -/

/-- Columns 0 to `n - 1` of the `d` rows are unit columns. -/
def UnitColumns (d n : ℕ) (m : Memory) : Prop := ∀ i j, i < d → j < n → m.mat i j = if i = j then 1 else 0

theorem UnitColumns.eq_zero {d n i j : ℕ} {m : Memory} (h : UnitColumns d n m) (hj : j < n) (hi : n ≤ i) (hd : i < d) :
    m.mat i j = 0 := by
  rw [h i j hd hj, if_neg (by omega)]

/-- One column of `SolveCore` (R142), its pivot in row `piv`. -/
def reduceColumn (p : Poly) (d piv col : ℕ) (m : Memory) : Memory :=
  eliminate p d col (normalize p d col (swapRows d piv col m))

theorem pivotRow_eq_some {m : Memory} {d col piv : ℕ} (h : pivotRow m d col = some piv) :
    piv < d ∧ col ≤ piv ∧ m.mat piv col ≠ 0 := by
  obtain ⟨hlt, hpiv, -⟩ := lowest_eq_some h
  rw [Bool.and_eq_true, decide_eq_true_iff, bne_iff_ne] at hpiv
  exact ⟨hlt, hpiv.1, hpiv.2⟩

theorem pivotRow_eq_none {m : Memory} {d col : ℕ} (h : pivotRow m d col = none) {i : ℕ} (hlo : col ≤ i) (hhi : i < d) :
    m.mat i col = 0 := by
  have hi := lowest_eq_none.mp h i hhi
  rwa [decide_eq_true hlo, Bool.true_and, bne_eq_false_iff_eq] at hi

section
variable {d piv col : ℕ} {m : Memory} (hd : d ≤ 256) (hcol : col < d)
include hd hcol

/-- The pivot row stands in row `col` after the exchange. -/
theorem swapRows_pivot (hpiv : piv < d) : (swapRows d piv col m).mat col col = m.mat piv col := by
  rw [swapRows_mat m hd hpiv hcol (hcol.trans_le hd), if_pos hcol, if_pos rfl]
  split_ifs with h
  · rw [h]
  · rfl

/-- Rows from `col` on are 0 in the columns before it, so their exchange keeps those columns. -/
theorem UnitColumns.swapRows (h : UnitColumns d col m) (hpiv : piv < d) (hle : col ≤ piv) :
    UnitColumns d col (swapRows d piv col m) := by
  intro i j hi hj
  have hjd : j < d := hj.trans hcol
  rw [swapRows_mat m hd hpiv hcol (hjd.trans_le hd), if_pos hjd]
  by_cases hip : i = piv
  · rw [if_pos hip, h.eq_zero hj le_rfl hcol, if_neg (by omega)]
  rw [if_neg hip]
  by_cases hic : i = col
  · rw [if_pos hic, h.eq_zero hj hle hpiv, if_neg (by omega)]
  · rw [if_neg hic, h i j hi hj]

theorem UnitColumns.normalize {p : Poly} (h : UnitColumns d col m) (hp : p.getLsbD 8 = true) :
    UnitColumns d col (normalize p d col m) := by
  intro i j hi hj
  rw [normalize_mat p m hd hcol ((hj.trans hcol).trans_le hd)]
  by_cases hrow : i = col ∧ j < d
  · rw [if_pos hrow, h.eq_zero hj le_rfl hcol, if_neg (by omega)]
    exact zero_gfMul hp _
  · rw [if_neg hrow, h i j hi hj]

theorem normalize_pivot {p : Poly} (hp : Config.legalPoly p = true) (hpv : m.mat col col ≠ 0) :
    (normalize p d col m).mat col col = 1 := by
  rw [normalize_mat p m hd hcol (hcol.trans_le hd), if_pos ⟨rfl, hcol⟩]
  exact ((gfMul_eq_iff_eq_gfDiv hp hpv).mp (one_gfMul (bit8_of_legalPoly hp) _)).symm

/-- Elimination with a pivot 1 makes column `col` a unit column and keeps the unit columns before it. -/
theorem UnitColumns.eliminate {p : Poly} (h : UnitColumns d col m) (hp : p.getLsbD 8 = true) (hpv : m.mat col col = 1) :
    UnitColumns d (col + 1) (eliminate p d col m) := by
  intro i j hi hj
  have hjd : j < d := by omega
  rw [(eliminate_spec p m hd hcol).1 i j (hjd.trans_le hd)]
  obtain rfl | hjcol : j = col ∨ j < col := by omega
  · split_ifs with hrow hij hij
    · exact absurd hij hrow.2.1
    · rw [hpv, gfMul_comm hp, one_gfMul hp, BitVec.xor_self]; rfl
    · rw [hij, hpv]
    · exact absurd ⟨hi, hij, hjd⟩ hrow
  · have hpivotRow : m.mat col j = 0 := h.eq_zero hjcol le_rfl hcol
    have hkept : m.mat i j ^^^ gfMul p (m.mat i col) (m.mat col j) = m.mat i j := by
      rw [hpivotRow, gfMul_zero_right]; exact BitVec.xor_zero
    rw [hkept, ite_self]
    exact h i j hi hjcol

end

section
variable {p : Poly} {d piv col : ℕ} {m : Memory} (hp : Config.legalPoly p = true) (hd : d ≤ 256) (hcol : col < d)
  (hpivot : pivotRow m d col = some piv)
include hp hd hcol hpivot

theorem reduceColumn_sameSolutions : SameSolutions p d m (reduceColumn p d piv col m) := by
  obtain ⟨hpiv, -, hpv⟩ := pivotRow_eq_some hpivot
  rw [← swapRows_pivot hd hcol hpiv] at hpv
  exact ((swapRows_sameSolutions m hd hpiv hcol).trans (normalize_sameSolutions _ hd hp hcol hpv)).trans
    (eliminate_sameSolutions _ hd (bit8_of_legalPoly hp) hcol)

theorem UnitColumns.reduceColumn (h : UnitColumns d col m) : UnitColumns d (col + 1) (reduceColumn p d piv col m) := by
  obtain ⟨hpiv, hle, hpv⟩ := pivotRow_eq_some hpivot
  have hbit := bit8_of_legalPoly hp
  rw [← swapRows_pivot hd hcol hpiv] at hpv
  exact ((h.swapRows hd hcol hpiv hle).normalize hd hcol hbit).eliminate hd hcol hbit
    (normalize_pivot hd hcol hp hpv)

end

/-! ### The ends of the elimination -/

/-- What the elimination of the system in `m` can come to: all columns unit columns, or column `col` without a pivot
after `col` unit columns. The buffers then hold a system with the same solutions. -/
inductive Eliminated (p : Poly) (d : ℕ) (m : Memory) : SolveEnd → Prop where
  | solved {m' : Memory} (hm : SameSolutions p d m m') (hunit : UnitColumns d d m') :
      Eliminated p d m (.solved (m'.const 0) m')
  | stopped {m' : Memory} {col : Byte} (hm : SameSolutions p d m m') (hcol : col.toNat < d)
      (hunit : UnitColumns d col.toNat m') (hzero : ∀ i, col.toNat ≤ i → i < d → m'.mat i col.toNat = 0) :
      Eliminated p d m (.stopped (.singular col) m')

theorem Eliminated.of_sameSolutions {p : Poly} {d : ℕ} {m m' : Memory} {e : SolveEnd} (h : SameSolutions p d m m')
    (he : Eliminated p d m' e) : Eliminated p d m e := by
  cases he with
  | solved hm hunit => exact .solved (h.trans hm) hunit
  | stopped hm hcol hunit hzero => exact .stopped (h.trans hm) hcol hunit hzero

theorem solveColumns_eliminated {p : Poly} {d : ℕ} (hp : Config.legalPoly p = true) (hd : d ≤ 256) (k : ℕ) :
    ∀ (col : ℕ) (m : Memory), col + k = d → UnitColumns d col m → Eliminated p d m (solveColumns p d k col m) := by
  induction k with
  | zero =>
    intro col m hk hunit
    obtain rfl : col = d := hk
    exact .solved (.refl p _ m) hunit
  | succ k ih =>
    intro col m hk hunit
    have hcol : col < d := by omega
    rw [solveColumns]
    split
    · next hnone =>
      have hbyte : (BitVec.ofNat 8 col).toNat = col := Nat.mod_eq_of_lt (hcol.trans_le hd)
      refine .stopped (.refl p d m) ?_ ?_ ?_ <;> rw [hbyte]
      · exact hcol
      · exact hunit
      · exact fun i => pivotRow_eq_none hnone
    · next piv hpivot =>
      exact .of_sameSolutions (reduceColumn_sameSolutions hp hd hcol hpivot)
        (ih (col + 1) _ (by omega) (hunit.reduceColumn hp hd hcol hpivot))

/-- Once the checks pass, `SolveCore` is the elimination of all columns. -/
theorem solveCore_eliminated {p : Poly} {d r c : Byte} {m : Memory} (hp : Config.legalPoly p = true)
    (hdims : checkDims m d r c = none) : Eliminated p d.toNat m (solveCore p d r c m) := by
  rw [solveCore, hdims]
  exact solveColumns_eliminated hp (by omega) d.toNat 0 m (Nat.zero_add _) fun _ j _ hj => absurd hj (Nat.not_lt_zero j)

/-- The equations of a system in unit columns name its solution. -/
theorem UnitColumns.residual_eq {p : Poly} {d : ℕ} {m : Memory} (h : UnitColumns d d m)
    (t : AdjoinRoot (bitPoly p.toNat)) (x : ℕ → Byte) {r : ℕ} (hr : r < d) :
    residual p d m t x r = byteClass p (x r) - t * byteClass p (m.const r) := by
  rw [residual, Finset.sum_eq_single_of_mem r (Finset.mem_range.mpr hr) fun c hc hcr => ?_]
  · rw [h r r hr hr, if_pos rfl]
    rw [byteClass_one, one_mul]
  · rw [h r c hr (Finset.mem_range.mp hc), if_neg hcr.symm]
    rw [byteClass_zero, zero_mul]

theorem UnitColumns.solves_iff {p : Poly} {d : ℕ} {m : Memory} (hp : p.getLsbD 8 = true) (h : UnitColumns d d m)
    {x : ℕ → Byte} : Solves p d m.mat m.const x ↔ ∀ i, i < d → x i = m.const i := by
  rw [solves_iff_satisfies hp]
  refine forall₂_congr fun r hr => ?_
  rw [h.residual_eq 1 x hr, one_mul, sub_eq_zero, (byteClass_injective hp).eq_iff]

theorem UnitColumns.nonsingular {p : Poly} {d : ℕ} {m : Memory} (hp : p.getLsbD 8 = true) (h : UnitColumns d d m) :
    Nonsingular p d m.mat := by
  intro x hx i hi
  have hrow := (solves_zero_iff_satisfies hp).mp hx i hi
  rwa [h.residual_eq 0 x hi, zero_mul, sub_zero, byteClass_eq_zero_iff hp] at hrow

/-- A vector that the matrix of a system stopped in column `col` takes to 0: the column itself, with 1 in its own
place. -/
def nullVector (m : Memory) (col : ℕ) (j : ℕ) : Byte := if j < col then m.mat j col else if j = col then 1 else 0

theorem nullVector_of_lt {m : Memory} {col j : ℕ} (h : j < col) : nullVector m col j = m.mat j col := if_pos h

@[simp] theorem nullVector_self (m : Memory) (col : ℕ) : nullVector m col col = 1 := by simp [nullVector]

theorem nullVector_of_gt {m : Memory} {col j : ℕ} (h : col < j) : nullVector m col j = 0 := by
  rw [nullVector, if_neg h.not_gt, if_neg h.ne']

theorem UnitColumns.nullVector_satisfies {p : Poly} {d col : ℕ} {m : Memory} (h : UnitColumns d col m) (hcol : col < d)
    (hzero : ∀ i, col ≤ i → i < d → m.mat i col = 0) : Satisfies p d m 0 (nullVector m col) := by
  intro r hr
  have hterm : ∀ c ∈ Finset.range d, byteClass p (m.mat r c) * byteClass p (nullVector m col c) =
      (if r = c then byteClass p (m.mat r col) else 0) + if col = c then byteClass p (m.mat r col) else 0 := by
    intro c hc
    rcases lt_trichotomy c col with hlt | rfl | hgt
    · rw [h r c hr hlt, nullVector_of_lt hlt, if_neg hlt.ne', add_zero]
      split_ifs with hrc
      · rw [byteClass_one, one_mul, hrc]
      · rw [byteClass_zero, zero_mul]
    · have hpivot : (if r = c then byteClass p (m.mat r c) else 0) = 0 := by
        split_ifs with hrc
        · rw [hzero r hrc.ge hr, byteClass_zero]
        · rfl
      rw [hpivot, nullVector_self, if_pos rfl, byteClass_one, mul_one, zero_add]
    · rw [nullVector_of_gt hgt, byteClass_zero, mul_zero, if_neg hgt.ne, add_zero]
      split_ifs with hrc
      · rw [hzero r (hrc ▸ hgt.le) hr, byteClass_zero]
      · rfl
  rw [residual, Finset.sum_congr rfl hterm, Finset.sum_add_distrib, Finset.sum_ite_eq, Finset.sum_ite_eq,
    if_pos (Finset.mem_range.mpr hr), if_pos (Finset.mem_range.mpr hcol), byteClass_add_self, zero_mul, sub_zero]

theorem UnitColumns.singular {p : Poly} {d col : ℕ} {m : Memory} (hp : p.getLsbD 8 = true) (h : UnitColumns d col m)
    (hcol : col < d) (hzero : ∀ i, col ≤ i → i < d → m.mat i col = 0) : ¬ Nonsingular p d m.mat := by
  intro hns
  have hx := hns _ ((solves_zero_iff_satisfies hp).mpr (h.nullVector_satisfies hcol hzero)) col hcol
  rw [nullVector_self] at hx
  exact absurd hx (by decide)

section
variable {p : Poly} {d : ℕ} {m : Memory} {e : SolveEnd} (hp : p.getLsbD 8 = true) (h : Eliminated p d m e)
include hp h

/-- A nonsingular system ends solved (R147). -/
theorem Eliminated.of_nonsingular (hns : Nonsingular p d m.mat) : ∃ m', e = .solved (m'.const 0) m' ∧
    UnitColumns d d m' ∧ ∀ x, Solves p d m.mat m.const x ↔ ∀ i, i < d → x i = m'.const i := by
  cases h with
  | solved hm hunit => exact ⟨_, rfl, hunit, fun x => (hm.solves_iff hp).symm.trans (hunit.solves_iff hp)⟩
  | stopped hm hcol hunit hzero =>
    exact absurd ((hm.nonsingular_iff hp).mpr hns) (hunit.singular hp hcol hzero)

/-- A singular system stops at one of its columns (R144, R148). -/
theorem Eliminated.of_singular (hs : ¬ Nonsingular p d m.mat) :
    ∃ (col : Byte) (m' : Memory), e = .stopped (.singular col) m' ∧ col.toNat < d := by
  cases h with
  | solved hm hunit => exact absurd ((hm.nonsingular_iff hp).mp (hunit.nonsingular hp)) hs
  | stopped hm hcol hunit hzero => exact ⟨_, _, rfl, hcol⟩

end

end Sys2Proof.Machine
end

section
/-! PROOFS. SOLVE and COMBINE_BYTE as the elimination of the system in MAT and CONST and of the one that `BuildSystem`
writes there (42_solver.md R147 to R149, 43_codec.md R179, R180). -/

namespace Sys2Proof.Machine

/-! ### SOLVE -/

/-- The places of a system's coefficients and constants, by window offset. -/
theorem SameOutside.read_eq {d : ℕ} {m m' : Memory} (h : SameOutside d m m') (hd : d ≤ 256) {a : ℕ}
    (hmat : inMatBlock d d a = false) (hconst : inConst d a = false) : m'.read a = m.read a := by
  refine h a (fun r c hr hc ha => ?_) fun i hi ha => ?_
  · have hblock : inMatBlock d d a = true := by
      simp only [inMatBlock, Bool.and_eq_true, decide_eq_true_iff, ha, matAddr]; omega
    rw [hmat] at hblock
    cases hblock
  · have hin : inConst d a = true := by
      simp only [inConst, Bool.and_eq_true, decide_eq_true_iff, ha, constAddr]; omega
    rw [hconst] at hin
    cases hin

theorem solveCore_read_eq {poly : Poly} {d r c : Byte} {m : Memory} {e : SolveEnd} (h : solveCore poly d r c m = e)
    {a : ℕ} : inMatBlock d.toNat d.toNat a = false → inConst d.toNat a = false → e.mem.read a = m.read a :=
  SameOutside.read_eq (h ▸ solveCore_sameOutside poly d r c m) (by omega)

theorem exec_solve_of_solved {d r c v : Byte} {s : State} {m : Memory}
    (h : solveCore s.poly d r c s.mem = .solved v m) :
    exec (.solve d r c) s = .next ({ s with mem := m }.okEnd v) := by
  rw [exec, execSolve, h]; rfl

theorem exec_solve_of_stopped {d r c : Byte} {s : State} {e : Cause} {m : Memory}
    (h : solveCore s.poly d r c s.mem = .stopped e m) :
    exec (.solve d r c) s = .next ({ s with mem := m }.errorEnd e.err) := by
  rw [exec, execSolve, h]; rfl

theorem exec_solve_of_checkDims {d r c : Byte} {s : State} {e : Cause} (h : checkDims s.mem d r c = some e) :
    exec (.solve d r c) s = .next (s.errorEnd e.err) :=
  exec_solve_of_stopped (by rw [solveCore, h])

/-! ### The system of COMBINE_BYTE -/

theorem buildSystem_spec {d : ℕ} (m : Memory) (hd : d ≤ 256) :
    (∀ r c, c < 256 → (buildSystem d m).mat r c = if r < d ∧ c = d - 1 then 1 else m.mat r c) ∧
    ∀ i, i < 256 → (buildSystem d m).const i = if i < d then m.mat i (d - 1) else m.const i := by
  refine forUp_invariant
    (P := fun (k : ℕ) (x : Memory) =>
      (∀ r c, c < 256 → x.mat r c = if r < k ∧ c = d - 1 then 1 else m.mat r c) ∧
      ∀ i, i < 256 → x.const i = if i < k then m.mat i (d - 1) else m.const i)
    ⟨fun r c _ => by simp, fun i _ => by simp⟩ ?_
  intro k x hk ⟨hmat, hconst⟩
  have hlast : d - 1 < 256 := by omega
  have hlt {i : ℕ} (hik : i ≠ k) : i < k + 1 ↔ i < k := by omega
  refine ⟨fun r c hc => ?_, fun i hi => ?_⟩
  · rw [Memory.mat_setMat _ _ hlast hc, Memory.mat_setConst _ _ (hk.trans_le hd), hmat r c hc]
    by_cases hrk : r = k
    · simp [hrk]
    · simp [hrk, hlt hrk]
  · rw [Memory.const_setMat _ _ hi, Memory.const_setConst, hconst i hi, hmat k _ hlast]
    by_cases hik : i = k
    · simp [hik]
    · simp [hik, hlt hik]

theorem buildSystem_sameOutside {d : ℕ} (m : Memory) : SameOutside d m (buildSystem d m) :=
  .loop m fun _ x hp => (SameOutside.setConst x _ hp).trans (.setMat _ _ hp (by omega))

theorem SameOutside.rowlen_eq {d i : ℕ} {m m' : Memory} (h : SameOutside d m m') (hi : i < 256) :
    m'.rowlen i = m.rowlen i :=
  h _ (fun _ _ _ _ => rowlenAddr_ne_matAddr hi) fun _ _ => rowlenAddr_ne_constAddr hi

theorem solves_congr {p : Poly} {d : ℕ} {M M' : ℕ → ℕ → Byte} {k k' x : ℕ → Byte}
    (hM : ∀ r c, r < d → c < d → M r c = M' r c) (hk : ∀ r, r < d → k r = k' r) :
    Solves p d M k x ↔ Solves p d M' k' x := by
  refine forall₂_congr fun r hr => ?_
  have hterms : (List.range d).map (fun c => gfMul p (M r c) (x c)) =
      (List.range d).map (fun c => gfMul p (M' r c) (x c)) :=
    List.map_congr_left fun c hc => by rw [hM r c hr (List.mem_range.mp hc)]
  rw [xorSum, xorSum, hterms, hk r hr]

section
variable {d : ℕ} (m : Memory) (hd : d ≤ 256)
include hd

theorem buildSystem_mat {r c : ℕ} (hr : r < d) (hc : c < d) : (buildSystem d m).mat r c = shareMatrix m d r c := by
  rw [(buildSystem_spec m hd).1 r c (hc.trans_le hd), shareMatrix]
  simp only [hr, true_and]

theorem buildSystem_const {r : ℕ} (hr : r < d) : (buildSystem d m).const r = shareConst m d r := by
  rw [(buildSystem_spec m hd).2 r (hr.trans_le hd), if_pos hr, shareConst]

/-- `BuildSystem` writes the system that the share rows stand for (R180). -/
theorem solves_buildSystem_iff (p : Poly) (x : ℕ → Byte) :
    Solves p d (buildSystem d m).mat (buildSystem d m).const x ↔ Solves p d (shareMatrix m d) (shareConst m d) x :=
  solves_congr (fun _ _ => buildSystem_mat m hd) fun _ => buildSystem_const m hd

theorem nonsingular_buildSystem_iff (p : Poly) :
    Nonsingular p d (buildSystem d m).mat ↔ Nonsingular p d (shareMatrix m d) :=
  forall_congr' fun _ => imp_congr (solves_congr (fun _ _ => buildSystem_mat m hd) fun _ _ => rfl) Iff.rfl

end

/-- The system of COMBINE_BYTE is written and solved in place (R180). -/
theorem solveCore_buildSystem_read_eq {poly : Poly} {d : Byte} {m : Memory} {e : SolveEnd}
    (h : solveCore poly d d d (buildSystem d.toNat m) = e) {a : ℕ} (hmat : inMatBlock d.toNat d.toNat a = false)
    (hconst : inConst d.toNat a = false) : e.mem.read a = m.read a :=
  (solveCore_read_eq h hmat hconst).trans ((buildSystem_sameOutside m).read_eq (by omega) hmat hconst)

/-- COMBINE_BYTE passes the checks of R179 on rows of length `d`. -/
structure State.SharesReady (d : Byte) (s : State) : Prop where
  sess : s.sess = .combine
  deg : d ≠ 0
  rows : d.toNat ≤ s.sessNP.toNat
  rowlens : ∀ p, p < s.sessNP.toNat → s.mem.rowlen p = d

section
variable {d : Byte} {s : State} (h : s.SharesReady d)
include h

theorem State.SharesReady.rowlen_zero : s.mem.rowlen 0 = d := by
  have hpos : 0 < d.toNat := Nat.pos_of_ne_zero fun h0 => h.deg (BitVec.eq_of_toNat_eq h0)
  exact h.rowlens 0 (hpos.trans_le h.rows)

theorem State.SharesReady.sharesCheck_eq : sharesCheck s.mem s.sessNP = none := by
  have hsame : lowest s.sessNP.toNat (fun q => s.mem.rowlen q != s.mem.rowlen 0) = none :=
    lowest_eq_none.mpr fun q hq => by rw [h.rowlens q hq, h.rowlen_zero, bne_self_eq_false]
  rw [sharesCheck, hsame, h.rowlen_zero]
  exact (if_neg (Nat.not_lt.mpr h.rows)).trans (if_neg h.deg)

theorem State.SharesReady.checkDims_eq : checkDims (buildSystem d.toNat s.mem) d d d = none :=
  checkDims_eq_none h.deg fun j hj => by
    rw [(buildSystem_sameOutside s.mem).rowlen_eq (by omega), h.rowlens j (hj.trans_le h.rows)]

theorem State.SharesReady.exec_of_solved {v : Byte} {m : Memory}
    (hsolve : solveCore s.poly d d d (buildSystem d.toNat s.mem) = .solved v m) :
    exec .combineByte s = .next ({ s with
      mem := m, sessJ := s.sessJ + 1, sess := if s.sessJ + 1 = s.sessL then .idle else .combine }.okEnd v) := by
  rw [exec, execCombineByte, if_neg (not_not.mpr h.sess), h.sharesCheck_eq, h.rowlen_zero]
  simp only [hsolve, ← h.sess]
  rfl

theorem State.SharesReady.exec_of_stopped {e : Cause} {m : Memory}
    (hsolve : solveCore s.poly d d d (buildSystem d.toNat s.mem) = .stopped e m) :
    exec .combineByte s = .next ({ s with mem := m, sess := .idle }.errorEnd e.err) := by
  rw [exec, execCombineByte, if_neg (not_not.mpr h.sess), h.sharesCheck_eq, h.rowlen_zero]
  simp only [hsolve]
  rfl

end

end Sys2Proof.Machine

namespace Sys2Proof.Proofs

open Sys2Proof.Machine

/-- Settles O42: the first check that fails, in the order of R143. -/
theorem solveChecksDimensionsInOrder : Obligations.SolveChecksDimensionsInOrder := by
  intro d r c s
  refine ⟨fun hr => ?_, ?_, ?_, ?_⟩
  · exact exec_solve_of_checkDims (checkDims_of_rows_ne c hr)
  · rintro rfl i hi hne hlow
    exact exec_solve_of_checkDims (checkDims_of_rowlen_ne c hi hne hlow)
  · rintro rfl hrow hc
    exact exec_solve_of_checkDims ((checkDims_of_rowlens c hrow).trans (if_pos hc))
  · rintro rfl hrow rfl hd
    exact exec_solve_of_checkDims
      (((checkDims_of_rowlens c hrow).trans (if_neg (not_not.mpr rfl))).trans (if_pos hd))

/-- Settles O45: what `SolveCore` leaves unchanged, at either end. -/
theorem solveWritesOnlyItsSystem : Obligations.SolveWritesOnlyItsSystem := by
  intro d r c s
  cases h : solveCore s.poly d r c s.mem with
  | solved v m => exact ⟨_, exec_solve_of_solved h, rfl, fun _ => solveCore_read_eq h⟩
  | stopped e m => exact ⟨_, exec_solve_of_stopped h, rfl, fun _ => solveCore_read_eq h⟩

/-- Settles O43: the elimination keeps the solutions and ends in unit columns, which name them. -/
theorem solveFindsTheUniqueSolution : Obligations.SolveFindsTheUniqueSolution := by
  intro d s hp hd hrow hns
  obtain ⟨m, h, hunit, hsol⟩ :=
    (solveCore_eliminated hp (checkDims_eq_none hd hrow)).of_nonsingular (bit8_of_legalPoly hp) hns
  exact ⟨_, exec_solve_of_solved h, rfl, hunit, hsol, fun _ => solveCore_read_eq h⟩

/-- Settles O44: the two ends of the elimination are those of a nonsingular and of a singular matrix. -/
theorem solveRaisesSingularExactlyWhenSingular : Obligations.SolveRaisesSingularExactlyWhenSingular := by
  intro d s hp hd hrow
  have hbit := bit8_of_legalPoly hp
  have hend := solveCore_eliminated hp (checkDims_eq_none hd hrow)
  by_cases hns : Nonsingular s.poly d.toNat s.mem.mat
  · obtain ⟨m, h, -, -⟩ := hend.of_nonsingular hbit hns
    exact ⟨_, exec_solve_of_solved h, fun _ => rfl, fun hs => absurd hns hs⟩
  · obtain ⟨col, m, h, hcol⟩ := hend.of_singular hbit hns
    exact ⟨_, exec_solve_of_stopped h, fun h => absurd h hns, fun _ => ⟨col, hcol, rfl, rfl⟩⟩

/-- Settles O46: E_SINGULAR is no dimension error, so the elimination has stopped, and shows where. -/
theorem singularSolveStopsInReducedForm : Obligations.SingularSolveStopsInReducedForm := by
  intro d r c s t hp ht herr
  cases hdims : checkDims s.mem d r c with
  | some e =>
    obtain rfl := Host.Outcome.next.inj ((exec_solve_of_checkDims hdims).symm.trans ht)
    exact absurd ((ecode_of_checkDims hdims).symm.trans herr) (by decide)
  | none =>
    have hend := solveCore_eliminated hp hdims
    generalize h : solveCore s.poly d r c s.mem = e at hend
    cases hend with
    | solved hm hunit =>
      obtain rfl := Host.Outcome.next.inj ((exec_solve_of_solved h).symm.trans ht)
      cases herr
    | stopped hm hcol hunit hzero =>
      obtain rfl := Host.Outcome.next.inj ((exec_solve_of_stopped h).symm.trans ht)
      exact ⟨hcol, hunit, hzero⟩

/-- Settles O53: COMBINE_BYTE is the elimination of the system `BuildSystem` writes. -/
theorem combineByteSolvesTheShareSystem : Obligations.CombineByteSolvesTheShareSystem := by
  intro d s hp hs hd hle hrow hns
  have hready : s.SharesReady d := ⟨hs, hd, hle, hrow⟩
  have hd256 : d.toNat ≤ 256 := by omega
  obtain ⟨m, h, hunit, hsol⟩ := (solveCore_eliminated hp hready.checkDims_eq).of_nonsingular (bit8_of_legalPoly hp)
    ((nonsingular_buildSystem_iff s.mem hd256 s.poly).mpr hns)
  exact ⟨_, hready.exec_of_solved h, rfl, hunit,
    fun x => (solves_buildSystem_iff s.mem hd256 s.poly x).symm.trans (hsol x),
    fun _ => solveCore_buildSystem_read_eq h⟩

/-- Settles O54: the elimination of a singular system stops, and `raise` leaves J alone. -/
theorem singularCombineByteAborts : Obligations.SingularCombineByteAborts := by
  intro d s hp hs hd hle hrow hns
  have hready : s.SharesReady d := ⟨hs, hd, hle, hrow⟩
  have hd256 : d.toNat ≤ 256 := by omega
  obtain ⟨col, m, h, hcol⟩ := (solveCore_eliminated hp hready.checkDims_eq).of_singular (bit8_of_legalPoly hp)
    ((nonsingular_buildSystem_iff s.mem hd256 s.poly).not.mpr hns)
  exact ⟨_, col, hready.exec_of_stopped h, hcol, rfl, fun _ => solveCore_buildSystem_read_eq h⟩

end Sys2Proof.Proofs
end

section
/-! PROOFS. The session commands by their checks (43_codec.md R170 to R172, R178, R179): what each check answers, and
what a command does for each answer. -/

namespace Sys2Proof.Machine

/-! ### The checks -/

section
variable {n k : Half} {l : Word}

theorem splitCheck_of_k_lt (h : k.toNat < 2) : splitCheck n k l = some .kLow := if_pos h

theorem splitCheck_of_k_gt (h : 255 < k.toNat) : splitCheck n k l = some .kHigh :=
  (if_neg (by omega)).trans (if_pos h)

theorem splitCheck_of_n_gt (hk : 2 ≤ k.toNat) (hk' : k.toNat ≤ 255) (h : 255 < n.toNat) :
    splitCheck n k l = some .nHigh := by
  rw [splitCheck, if_neg (by omega), if_neg (by omega), if_pos h]

theorem splitCheck_of_n_lt (hk : 2 ≤ k.toNat) (hk' : k.toNat ≤ 255) (h : n.toNat < k.toNat) :
    splitCheck n k l = some .nLow := by
  rw [splitCheck, if_neg (by omega), if_neg (by omega), if_neg (by omega), if_pos h]

/-- With K and N within their limits the check left is that of L. -/
theorem splitCheck_of_limits (hk : 2 ≤ k.toNat) (hkn : k.toNat ≤ n.toNat) (hn : n.toNat ≤ 255) :
    splitCheck n k l = if l = 0 then some .secretEmpty else none := by
  rw [splitCheck, if_neg (by omega), if_neg (by omega), if_neg (by omega), if_neg (by omega)]

end

section
variable {m : Memory} {p : Half}

theorem combineCheck_of_zero (h : p.toNat = 0) : combineCheck m p = some .partsNone :=
  if_pos (BitVec.eq_of_toNat_eq h)

theorem combineCheck_of_one (h : p.toNat = 1) : combineCheck m p = some .partsFew := by
  obtain rfl : p = 1 := BitVec.eq_of_toNat_eq h
  rfl

/-- From two parties on the checks left are that of their number and those of the outer lengths. -/
theorem combineCheck_of_two_le (h : 2 ≤ p.toNat) : combineCheck m p =
    if 255 < p.toNat then some .partsMax
    else (lowest p.toNat (fun q => m.olen q != m.olen 0)).map (fun q => .lenMismatch (BitVec.ofNat 8 q)) := by
  have h0 : p ≠ 0 := by rintro rfl; exact absurd h (by decide)
  have h1 : p ≠ 1 := by rintro rfl; exact absurd h (by decide)
  rw [combineCheck, if_neg h0, if_neg h1]

end

/-- The search for the lowest party whose value differs from party 0's (R178, R179). -/
theorem lowest_ne_eq_some {α : Type} [DecidableEq α] {f : ℕ → α} {n i : ℕ} (hi : i < n) (hne : f i ≠ f 0)
    (hlow : ∀ j, j < i → f j = f 0) : lowest n (fun q => f q != f 0) = some i :=
  lowest_eq_some_of hi (bne_iff_ne.mpr hne) fun j hj => bne_eq_false_iff_eq.mpr (hlow j hj)

theorem lowest_ne_eq_none {α : Type} [DecidableEq α] {f : ℕ → α} {n : ℕ} (h : ∀ j, j < n → f j = f 0) :
    lowest n (fun q => f q != f 0) = none :=
  lowest_eq_none.mpr fun j hj => bne_eq_false_iff_eq.mpr (h j hj)

section
variable {m : Memory} {np : Byte}

theorem sharesCheck_of_mismatch {p : Byte} (hp : p.toNat < np.toNat) (hne : m.rowlen p.toNat ≠ m.rowlen 0)
    (hlow : ∀ q, q < p.toNat → m.rowlen q = m.rowlen 0) : sharesCheck m np = some (.sharesMismatch p) := by
  rw [sharesCheck, lowest_ne_eq_some hp hne hlow]
  exact congrArg (some ∘ Cause.sharesMismatch) (BitVec.eq_of_toNat_eq (Nat.mod_eq_of_lt p.isLt))

/-- With equal row lengths the checks left are those of their number and of the length itself. -/
theorem sharesCheck_of_rowlens (h : ∀ q, q < np.toNat → m.rowlen q = m.rowlen 0) : sharesCheck m np =
    if np.toNat < (m.rowlen 0).toNat then some (.dimRows np)
    else if m.rowlen 0 = 0 then some .degZero else none := by
  rw [sharesCheck, lowest_ne_eq_none h]

/-- What COMBINE_BYTE's checks have established (R179). -/
theorem sharesCheck_eq_none (h : sharesCheck m np = none) :
    (∀ q, q < np.toNat → m.rowlen q = m.rowlen 0) ∧ (m.rowlen 0).toNat ≤ np.toNat ∧ m.rowlen 0 ≠ 0 := by
  have hsame : ∀ q, q < np.toNat → m.rowlen q = m.rowlen 0 := by
    cases hlow : lowest np.toNat (fun q => m.rowlen q != m.rowlen 0) with
    | some q => simp [sharesCheck, hlow] at h
    | none => exact fun q hq => bne_eq_false_iff_eq.mp (lowest_eq_none.mp hlow q hq)
  rw [sharesCheck_of_rowlens hsame] at h
  split_ifs at h with hrows hzero
  exact ⟨hsame, Nat.le_of_not_lt hrows, hzero⟩

end

/-! ### The commands for each answer -/

section
variable {s : State}

theorem exec_splitInit_of_open (h : s.sess ≠ .idle) : exec .splitInit s = .next (s.errorEnd ⟨7, 0x01, 0⟩) := if_pos h

theorem exec_combineInit_of_open (h : s.sess ≠ .idle) : exec .combineInit s = .next (s.errorEnd ⟨7, 0x01, 0⟩) :=
  if_pos h

theorem exec_splitByte_of_noSplit (v : Byte) (h : s.sess ≠ .split) :
    exec (.splitByte v) s = .next (s.errorEnd ⟨7, 0x02, 0⟩) := if_pos h

theorem exec_combineByte_of_noCombine (h : s.sess ≠ .combine) :
    exec .combineByte s = .next (s.errorEnd ⟨7, 0x03, 0⟩) := if_pos h

theorem exec_splitInit_of_refused {e : Cause} (h : s.sess = .idle)
    (hc : splitCheck s.cfgN s.cfgK s.cfgL = some e) : exec .splitInit s = .next (s.errorEnd e.err) := by
  rw [exec, execSplitInit, if_neg (not_not.mpr h), hc]; rfl

theorem exec_splitInit_of_passed (h : s.sess = .idle) (hc : splitCheck s.cfgN s.cfgK s.cfgL = none) :
    exec .splitInit s = .next (State.okEnd 0 { s with
      sessNP := BitVec.ofNat 8 s.cfgN.toNat, sessKL := BitVec.ofNat 8 s.cfgK.toNat, sessL := s.cfgL, sessJ := 0,
      sess := .split }) := by
  rw [exec, execSplitInit, if_neg (not_not.mpr h), hc]; rfl

theorem exec_combineInit_of_refused {e : Cause} (h : s.sess = .idle) (hc : combineCheck s.mem s.cfgP = some e) :
    exec .combineInit s = .next (s.errorEnd e.err) := by
  rw [exec, execCombineInit, if_neg (not_not.mpr h), hc]; rfl

theorem exec_combineInit_of_passed (h : s.sess = .idle) (hc : combineCheck s.mem s.cfgP = none) :
    exec .combineInit s = .next (State.okEnd 0 { s with
      sessNP := BitVec.ofNat 8 s.cfgP.toNat, sessKL := 0, sessL := s.mem.olen 0, sessJ := 0,
      sess := if s.mem.olen 0 = 0 then .idle else .combine }) := by
  rw [exec, execCombineInit, if_neg (not_not.mpr h), hc]; rfl

theorem exec_splitByte_of_rows {v : Byte} {t : State} (h : s.sess = .split)
    (hr : splitRows s.sessKL.toNat v 0 s.sessNP.toNat s = .rows t) :
    exec (.splitByte v) s = .next (t.advance.complete 0) := by
  rw [exec, execSplitByte, if_neg (not_not.mpr h), hr]

theorem exec_splitByte_of_failed {v : Byte} {p i : ℕ} {t : State} (h : s.sess = .split)
    (hr : splitRows s.sessKL.toNat v 0 s.sessNP.toNat s = .failed p i t) :
    exec (.splitByte v) s = .next (rngFailure s.sessNP.toNat s.sessKL.toNat p i t) := by
  rw [exec, execSplitByte, if_neg (not_not.mpr h), hr]

theorem exec_combineByte_of_refused {e : Cause} (h : s.sess = .combine) (hc : sharesCheck s.mem s.sessNP = some e) :
    exec .combineByte s = .next ({ s with sess := .idle }.errorEnd e.err) := by
  rw [exec, execCombineByte, if_neg (not_not.mpr h), hc]; rfl

/-- Once its checks pass, COMBINE_BYTE is ready for the elimination. -/
theorem State.SharesReady.of_sharesCheck (hs : s.sess = .combine)
    (hc : sharesCheck s.mem s.sessNP = none) : s.SharesReady (s.mem.rowlen 0) :=
  have ⟨hsame, hrows, hdeg⟩ := sharesCheck_eq_none hc
  ⟨hs, hdeg, hrows, hsame⟩

end

/-! ### The session each command leaves (R170) -/

theorem exec_splitInit_sess (s : State) : ∃ t, exec .splitInit s = .next t ∧
    (s.sess = .idle → (t.err.ecode = 0 → t.sess = .split) ∧ (t.err.ecode ≠ 0 → t.sess = .idle)) ∧
    (s.sess ≠ .idle → t.err.ecode = 7 ∧ t.sess = s.sess) := by
  by_cases h : s.sess = .idle
  · cases hc : splitCheck s.cfgN s.cfgK s.cfgL with
    | some e =>
      exact ⟨_, exec_splitInit_of_refused h hc, fun _ => ⟨fun he => absurd he e.err_ecode_ne_zero, fun _ => h⟩,
        absurd h⟩
    | none => exact ⟨_, exec_splitInit_of_passed h hc, fun _ => ⟨fun _ => rfl, absurd rfl⟩, absurd h⟩
  · exact ⟨_, exec_splitInit_of_open h, fun hi => absurd hi h, fun _ => ⟨rfl, rfl⟩⟩

theorem exec_combineInit_sess (s : State) : ∃ t, exec .combineInit s = .next t ∧
    (s.sess = .idle → (t.err.ecode = 0 → t.sess = if t.sessL = 0 then .idle else .combine) ∧
      (t.err.ecode ≠ 0 → t.sess = .idle)) ∧
    (s.sess ≠ .idle → t.err.ecode = 7 ∧ t.sess = s.sess) := by
  by_cases h : s.sess = .idle
  · cases hc : combineCheck s.mem s.cfgP with
    | some e =>
      exact ⟨_, exec_combineInit_of_refused h hc, fun _ => ⟨fun he => absurd he e.err_ecode_ne_zero, fun _ => h⟩,
        absurd h⟩
    | none => exact ⟨_, exec_combineInit_of_passed h hc, fun _ => ⟨fun _ => rfl, absurd rfl⟩, absurd h⟩
  · exact ⟨_, exec_combineInit_of_open h, fun hi => absurd hi h, fun _ => ⟨rfl, rfl⟩⟩

theorem exec_splitByte_sess (v : Byte) (s : State) : ∃ t, exec (.splitByte v) s = .next t ∧
    (s.sess = .split → (t.err.ecode = 0 → t.sess = if t.sessJ = t.sessL then .idle else .split) ∧
      (t.err.ecode ≠ 0 → t.sess = .idle)) ∧
    (s.sess ≠ .split → t.err.ecode = 7 ∧ t.sess = s.sess) := by
  by_cases h : s.sess = .split
  · rcases splitRows_shape s.sessKL.toNat v (by omega) s.sessNP.toNat 0 s with ⟨t, ht, heq⟩ | ⟨p, i, t, ht, -⟩
    · have hsess : t.sess = .split := by rw [heq]; exact h
      exact ⟨_, exec_splitByte_of_rows h ht, fun _ => ⟨fun _ => by rw [← hsess]; rfl, absurd rfl⟩, absurd h⟩
    · exact ⟨_, exec_splitByte_of_failed h ht, fun _ => ⟨fun he => absurd he (Cause.err_ecode_ne_zero _), fun _ => rfl⟩,
        absurd h⟩
  · exact ⟨_, exec_splitByte_of_noSplit v h, fun hs => absurd hs h, fun _ => ⟨rfl, rfl⟩⟩

theorem exec_combineByte_sess (s : State) : ∃ t, exec .combineByte s = .next t ∧
    (s.sess = .combine → (t.err.ecode = 0 → t.sess = if t.sessJ = t.sessL then .idle else .combine) ∧
      (t.err.ecode ≠ 0 → t.sess = .idle)) ∧
    (s.sess ≠ .combine → t.err.ecode = 7 ∧ t.sess = s.sess) := by
  by_cases h : s.sess = .combine
  · cases hc : sharesCheck s.mem s.sessNP with
    | some e =>
      exact ⟨_, exec_combineByte_of_refused h hc, fun _ => ⟨fun he => absurd he e.err_ecode_ne_zero, fun _ => rfl⟩,
        absurd h⟩
    | none =>
      have hready := State.SharesReady.of_sharesCheck h hc
      cases hsolve : solveCore s.poly (s.mem.rowlen 0) (s.mem.rowlen 0) (s.mem.rowlen 0)
          (buildSystem (s.mem.rowlen 0).toNat s.mem) with
      | stopped e m =>
        exact ⟨_, hready.exec_of_stopped hsolve, fun _ => ⟨fun he => absurd he e.err_ecode_ne_zero, fun _ => rfl⟩,
          absurd h⟩
      | solved v m => exact ⟨_, hready.exec_of_solved hsolve, fun _ => ⟨fun _ => rfl, absurd rfl⟩, absurd h⟩
  · exact ⟨_, exec_combineByte_of_noCombine h, fun hs => absurd hs h, fun _ => ⟨rfl, rfl⟩⟩

/-- STATUS.SESS shows the session state (R25). -/
theorem statusWord_sess (s : State) : s.statusWord.extractLsb' 4 2 = sessBits s.sess := by
  refine BitVec.eq_of_toNat_eq ?_
  rw [BitVec.extractLsb'_toNat, Nat.shiftRight_eq_div_pow, s.statusWord_toNat]
  have hbits := (sessBits s.sess).isLt
  have hbusy := s.pending.isSome.toNat_le
  have hdone := s.done.toNat_le
  have hovr := s.ovr.toNat_le
  split_ifs <;> omega

end Sys2Proof.Machine

namespace Sys2Proof.Proofs

open Sys2Proof.Machine

/-- Settles O47: each session command looks at the session state first. -/
theorem sessionCommandsRefuseTheWrongState : Obligations.SessionCommandsRefuseTheWrongState := fun _ v =>
  ⟨exec_splitInit_of_open, exec_combineInit_of_open, exec_splitByte_of_noSplit v, exec_combineByte_of_noCombine⟩

/-- Settles O48: what each check answers, and SPLIT_INIT for that answer. -/
theorem splitInitValidatesThenOpensASession : Obligations.SplitInitValidatesThenOpensASession := by
  refine fun s => ⟨exec_splitInit_of_open, fun h => ⟨fun hk => ?_, fun hk => ?_, fun hk hk' hn => ?_,
    fun hk hk' hn => ?_, fun hk hkn hn hl => ?_, fun hk hkn hn hl => ?_⟩⟩
  · exact exec_splitInit_of_refused h (splitCheck_of_k_lt hk)
  · exact exec_splitInit_of_refused h (splitCheck_of_k_gt hk)
  · exact exec_splitInit_of_refused h (splitCheck_of_n_gt hk hk' hn)
  · exact exec_splitInit_of_refused h (splitCheck_of_n_lt hk hk' hn)
  · exact exec_splitInit_of_refused h ((splitCheck_of_limits hk hkn hn).trans (if_pos hl))
  · exact exec_splitInit_of_passed h ((splitCheck_of_limits hk hkn hn).trans (if_neg hl))

/-- Settles O51: what each check answers, and COMBINE_INIT for that answer. -/
theorem combineInitValidatesThenOpensASession : Obligations.CombineInitValidatesThenOpensASession := by
  refine fun s => ⟨exec_combineInit_of_open, fun h => ⟨fun hn => ?_, fun hn => ?_, fun hn => ?_,
    fun hn hn' p hp hne hlow => ?_, fun hn hn' heq => ?_⟩⟩
  · exact exec_combineInit_of_refused h (combineCheck_of_zero hn)
  · exact exec_combineInit_of_refused h (combineCheck_of_one hn)
  · exact exec_combineInit_of_refused h ((combineCheck_of_two_le (by omega)).trans (if_pos hn))
  · refine exec_combineInit_of_refused (e := .lenMismatch p) h ?_
    rw [combineCheck_of_two_le hn, if_neg (by omega), lowest_ne_eq_some hp hne hlow, Option.map_some,
      BitVec.ofNat_toNat, BitVec.setWidth_eq]
  · refine exec_combineInit_of_passed h ?_
    rw [combineCheck_of_two_le hn, if_neg (by omega), lowest_ne_eq_none heq, Option.map_none]

/-- Settles O52: what each check answers, and COMBINE_BYTE for that answer. -/
theorem combineByteChecksTheSharesFirst : Obligations.CombineByteChecksTheSharesFirst := by
  refine fun s h => ⟨fun p hp hne hlow => ?_, fun heq hlt => ?_, fun heq hzero => ?_⟩
  · exact exec_combineByte_of_refused h (sharesCheck_of_mismatch hp hne hlow)
  · exact exec_combineByte_of_refused h ((sharesCheck_of_rowlens heq).trans (if_pos hlt))
  · refine exec_combineByte_of_refused (e := .degZero) h ?_
    rw [sharesCheck_of_rowlens heq, hzero]
    exact if_neg (Nat.not_lt_zero _)

/-- Settles O22: the session after each command; only the session commands and ABORT move it. -/
theorem sessionFollowsItsStateMachine : Obligations.SessionFollowsItsStateMachine := by
  refine ⟨fun s => ?_, fun w e s hd => ?_, fun i s => ?_⟩
  · refine (statusWord_sess s).trans ?_
    cases s.sess <;> rfl
  · refine ⟨_, execute_of_illegal hd s, ?_, rfl⟩
    cases e <;> rfl
  · cases i with
    | splitInit => exact exec_splitInit_sess s
    | splitByte v => exact exec_splitByte_sess v s
    | combineInit => exact exec_combineInit_sess s
    | combineByte => exact exec_combineByte_sess s
    | abort => exact ⟨_, rfl, rfl, rfl⟩
    | nop => exact ⟨_, rfl, rfl⟩
    | gmul a b => exact ⟨_, rfl, rfl⟩
    | eval ra rb n => exact ⟨_, rfl, rfl⟩
    | heval ra rb n => exact ⟨_, rfl, rfl⟩
    | gdiv a b =>
      rw [exec, execGdiv]
      split_ifs <;> exact ⟨_, rfl, rfl⟩
    | ginv x =>
      rw [exec, execGinv]
      split_ifs <;> exact ⟨_, rfl, rfl⟩
    | solve d r c =>
      cases h : solveCore s.poly d r c s.mem with
      | solved v m => exact ⟨_, exec_solve_of_solved h, rfl⟩
      | stopped e m => exact ⟨_, exec_solve_of_stopped h, rfl⟩

end Sys2Proof.Proofs
end

section
/-! PROOFS. The rows of SPLIT_BYTE (43_codec.md R173 to R177): what its loops leave in the buffers when every draw
answers a byte, which draw was the first to fail otherwise, and what clearing the output leaves. -/

namespace Sys2Proof.Machine

/-! ### The places of the share rows -/

theorem inMatBlock_iff {n k a : ℕ} (hk : k ≤ 256) :
    inMatBlock n k a = true ↔ ∃ r c, r < n ∧ c < k ∧ a = matAddr r c := by
  simp only [inMatBlock, Bool.and_eq_true, decide_eq_true_iff, matAddr]
  constructor
  · rintro ⟨⟨ha, hr⟩, hc⟩
    exact ⟨(a - 0x10000) / 256, (a - 0x10000) % 256, hr, hc, by omega⟩
  · rintro ⟨r, c, hr, hc, rfl⟩
    omega

theorem inRowlen_iff {n a : ℕ} : inRowlen n a = true ↔ ∃ r, r < n ∧ a = rowlenAddr r := by
  simp only [inRowlen, Bool.and_eq_true, decide_eq_true_iff, rowlenAddr]
  constructor
  · rintro ⟨hlo, hhi⟩
    exact ⟨a - 0x100, by omega, by omega⟩
  · rintro ⟨r, hr, rfl⟩
    omega

/-- `m'` holds the same byte as `m` at every offset that is no `MAT[q][c]` with `c < k` and no `ROWLEN[q]` of the
parties `q` = `p`, ..., `p + n - 1`. -/
def SameOutsideRows (k p n : ℕ) (m m' : Memory) : Prop :=
  ∀ a, (∀ r c, r < n → c < k → a ≠ matAddr (p + r) c) → (∀ r, r < n → a ≠ rowlenAddr (p + r)) → m'.read a = m.read a

theorem SameOutsideRows.mono {k p n n' : ℕ} {m m' : Memory} (h : SameOutsideRows k p n m m') (hn : n ≤ n') :
    SameOutsideRows k p n' m m' :=
  fun a hm hl => h a (fun r c hr => hm r c (hr.trans_le hn)) fun r hr => hl r (hr.trans_le hn)

/-- Writes to the rows of party `p` and then to those of the parties after it. -/
theorem SameOutsideRows.cons {k p n : ℕ} {m m' m'' : Memory} (h : SameOutsideRows k p 1 m m')
    (h' : SameOutsideRows k (p + 1) n m' m'') : SameOutsideRows k p (n + 1) m m'' := by
  intro a hm hl
  have hnext (r : ℕ) : p + 1 + r = p + (r + 1) := by omega
  refine (h' a (fun r c hr hc => ?_) fun r hr => ?_).trans
    (h a (fun r c hr => hm r c (by omega)) fun r hr => hl r (by omega))
  · rw [hnext]; exact hm _ c (Nat.succ_lt_succ hr) hc
  · rw [hnext]; exact hl _ (Nat.succ_lt_succ hr)

/-- Writes to the rows of the parties after `p` keep party `p`'s. -/
theorem SameOutsideRows.mat_eq {k p n c : ℕ} {m m' : Memory} (h : SameOutsideRows k (p + 1) n m m') (hk : k ≤ 256)
    (hpn : p + 1 + n ≤ 256) (hc : c < 256) : m'.mat p c = m.mat p c := by
  refine h _ (fun r c' _ hc' heq => ?_) fun r hr => (rowlenAddr_ne_matAddr (by omega)).symm
  have := (matAddr_inj hc (hc'.trans_le hk)).mp heq
  omega

theorem SameOutsideRows.rowlen_eq {k p n : ℕ} {m m' : Memory} (h : SameOutsideRows k (p + 1) n m m')
    (hp : p < 256) : m'.rowlen p = m.rowlen p := by
  refine h _ (fun r c _ _ => rowlenAddr_ne_matAddr hp) fun r _ heq => ?_
  rw [rowlenAddr, rowlenAddr] at heq
  omega

theorem SameOutsideRows.read_eq {k n a : ℕ} {m m' : Memory} (h : SameOutsideRows k 0 n m m') (hk : k ≤ 256)
    (hm : inMatBlock n k a = false) (hl : inRowlen n a = false) : m'.read a = m.read a := by
  refine h a (fun r c hr hc ha => ?_) fun r hr ha => ?_
  · exact Bool.eq_false_iff.mp hm ((inMatBlock_iff hk).mpr ⟨r, c, hr, hc, by rw [ha, Nat.zero_add]⟩)
  · exact Bool.eq_false_iff.mp hl (inRowlen_iff.mpr ⟨r, hr, by rw [ha, Nat.zero_add]⟩)

/-! ### The state while the rows are made -/

/-- The state after `n` more draws, with the buffers `m`. -/
def State.drawnTo (s : State) (m : Memory) (n : ℕ) : State :=
  { s with mem := m, rng := s.rng.drop n, draws := s.draws + n }

@[simp] theorem State.drawnTo_mem (s : State) (m : Memory) (n : ℕ) : (s.drawnTo m n).mem = m := rfl

@[simp] theorem State.drawnTo_poly (s : State) (m : Memory) (n : ℕ) : (s.drawnTo m n).poly = s.poly := rfl

@[simp] theorem State.drawnTo_setMem (s : State) (m m' : Memory) (n : ℕ) :
    (s.drawnTo m n).setMem m' = s.drawnTo m' n := rfl

@[simp] theorem State.answer_drawnTo (s : State) (m : Memory) (n j : ℕ) :
    (s.drawnTo m n).answer j = s.answer (n + j) :=
  s.answer_dropped n j m

@[simp] theorem State.drawnTo_drawnTo (s : State) (m m' : Memory) (n n' : ℕ) :
    (s.drawnTo m n).drawnTo m' n' = s.drawnTo m' (n + n') := by
  simp only [State.drawnTo, List.drop_drop, Nat.add_assoc]

@[simp] theorem State.drawnTo_zero (s : State) : s.drawnTo s.mem 0 = s := rfl

/-- The rows of the parties `p`, ..., `p + n - 1` for the byte `v`, in `m`: their coefficients are the answers from
the state `s` on (R173, R176), and their constants and lengths are as R175 says. -/
structure ShareRows (k : ℕ) (v : Byte) (p n : ℕ) (s : State) (m : Memory) : Prop where
  coeffs : ∀ r i, r < n → i < k - 1 → s.answer (r * (k - 1) + i) = .byte (m.mat (p + r) i)
  consts : ∀ r, r < n → m.mat (p + r) (k - 1) = gfMul s.poly (m.mat (p + r) 0) v
  lens : ∀ r, r < n → m.rowlen (p + r) = BitVec.ofNat 8 k
  frame : SameOutsideRows k p n s.mem m

/-- What the loops of SPLIT_BYTE come to from `s` (R173): all rows made, or the first draw to fail (R177). -/
inductive SplitRowsEnd (k : ℕ) (v : Byte) (p n : ℕ) (s : State) : SplitEnd → Prop where
  | rows {m : Memory} (h : ShareRows k v p n s m) : SplitRowsEnd k v p n s (.rows (s.drawnTo m (n * (k - 1))))
  | failed {r i : ℕ} {m : Memory} (hr : r < n) (hi : i < k - 1) (hfail : s.answer (r * (k - 1) + i) = .fail)
      (hbytes : ∀ j, j < r * (k - 1) + i → ∃ b, s.answer j = .byte b) (frame : SameOutsideRows k p n s.mem m) :
      SplitRowsEnd k v p n s (.failed (p + r) i (s.drawnTo m (r * (k - 1) + i + 1)))

section
variable {k p : ℕ} {v : Byte} {s : State} (hk : 2 ≤ k) (hk' : k ≤ 256)
include hk hk'

/-- Party `p`'s row once its draws have answered (R173, R175). -/
theorem shareRows_closeRow {m : Memory} (hp : p < 256) (hcoeffs : ∀ i, i < k - 1 → s.answer i = .byte (m.mat p i))
    (hframe : ∀ a, (∀ i, i < k - 1 → a ≠ matAddr p i) → m.read a = s.mem.read a) :
    ShareRows k v p 1 s (closeRow s.poly k v p m) := by
  have hmat {c : ℕ} (hc : c < k) := closeRow_mat (r := p) s.poly v m hp hk' (hc.trans_le hk')
  refine ⟨fun r i hr hi => ?_, fun r hr => ?_, fun r hr => ?_, fun a hm hl => ?_⟩
  · obtain rfl : r = 0 := by omega
    rw [Nat.zero_mul, Nat.zero_add, Nat.add_zero, hmat (by omega), if_neg (by omega)]
    exact hcoeffs i hi
  · obtain rfl : r = 0 := by omega
    rw [Nat.add_zero, hmat (by omega), hmat (by omega), if_pos ⟨rfl, rfl⟩, if_neg (by omega)]
  · obtain rfl : r = 0 := by omega
    exact (closeRow_rowlen s.poly v m hp).trans (if_pos rfl)
  · refine (closeRow_read s.poly v m (hm 0 (k - 1) one_pos (by omega)) (hl 0 one_pos)).trans ?_
    exact hframe a fun i hi => hm 0 i one_pos (by omega)

/-- Party `p`'s row and then those of the parties after it. -/
theorem ShareRows.cons {n : ℕ} {m m' : Memory} (hpn : p + 1 + n ≤ 256) (h : ShareRows k v p 1 s m)
    (h' : ShareRows k v (p + 1) n (s.drawnTo m (k - 1)) m') : ShareRows k v p (n + 1) s m' := by
  have hkept {c : ℕ} (hc : c < k) : m'.mat p c = m.mat p c := h'.frame.mat_eq hk' hpn (hc.trans_le hk')
  have hnext (r : ℕ) : p + (r + 1) = p + 1 + r := by omega
  refine ⟨fun r i hr hi => ?_, fun r hr => ?_, fun r hr => ?_, h.frame.cons h'.frame⟩
  · cases r with
    | zero => rw [h.coeffs 0 i one_pos hi, Nat.add_zero, hkept (by omega)]
    | succ r =>
      rw [hnext, ← h'.coeffs r i (Nat.lt_of_succ_lt_succ hr) hi, State.answer_drawnTo, Nat.succ_mul]
      congr 1
      omega
  · cases r with
    | zero =>
      rw [Nat.add_zero, hkept (by omega), hkept (by omega)]
      exact h.consts 0 one_pos
    | succ r => rw [hnext]; exact h'.consts r (Nat.lt_of_succ_lt_succ hr)
  · cases r with
    | zero => exact (h'.frame.rowlen_eq (by omega)).trans (h.lens 0 one_pos)
    | succ r => rw [hnext]; exact h'.lens r (Nat.lt_of_succ_lt_succ hr)

/-- The end of the parties after `p`, once party `p`'s row is made. -/
theorem SplitRowsEnd.cons {n : ℕ} {m : Memory} {e : SplitEnd} (hpn : p + 1 + n ≤ 256) (h : ShareRows k v p 1 s m)
    (he : SplitRowsEnd k v (p + 1) n (s.drawnTo m (k - 1)) e) : SplitRowsEnd k v p (n + 1) s e := by
  cases he with
  | rows h' =>
    rw [State.drawnTo_drawnTo, Nat.add_comm (k - 1), ← Nat.succ_mul]
    exact .rows (h.cons hk hk' hpn h')
  | @failed r i m' hr hi hfail hbytes frame =>
    have hpos : k - 1 + (r * (k - 1) + i) = (r + 1) * (k - 1) + i := by rw [Nat.succ_mul]; omega
    rw [State.answer_drawnTo, hpos] at hfail
    rw [State.drawnTo_drawnTo, ← Nat.add_assoc, hpos, show p + 1 + r = p + (r + 1) by omega]
    refine .failed (Nat.succ_lt_succ hr) hi hfail (fun j hj => ?_) (h.frame.cons frame)
    by_cases hjk : j < k - 1
    · have hbyte := h.coeffs 0 j one_pos hjk
      rw [Nat.zero_mul, Nat.zero_add] at hbyte
      exact ⟨_, hbyte⟩
    · obtain ⟨b, hb⟩ := hbytes (j - (k - 1)) (by omega)
      rw [State.answer_drawnTo, Nat.add_sub_of_le (Nat.le_of_not_lt hjk)] at hb
      exact ⟨b, hb⟩

end

theorem splitRows_end {k : ℕ} (v : Byte) (hk : 2 ≤ k) (hk' : k ≤ 256) (n : ℕ) : ∀ (p : ℕ) (s : State), p + n ≤ 256 →
    SplitRowsEnd k v p n s (splitRows k v p n s) := by
  induction n with
  | zero =>
    intro p s _
    have hnone : ShareRows k v p 0 s s.mem := ⟨nofun, nofun, nofun, fun _ _ _ => rfl⟩
    have hend := SplitRowsEnd.rows hnone
    rwa [Nat.zero_mul, State.drawnTo_zero] at hend
  | succ n ih =>
    intro p s hpn
    rcases drawCoeffs_spec p (k - 1) 0 s (by omega) with
      ⟨t, ht, heq, hcoeffs, hframe⟩ | ⟨i, t, hi, ht, heq, hfail, hbytes, hframe⟩ <;>
      simp only [Nat.zero_add] at *
    · generalize t.mem = m at heq hcoeffs hframe
      obtain rfl : t = s.drawnTo m (k - 1) := heq
      rw [splitRows, ht]
      exact .cons hk hk' (by omega) (shareRows_closeRow hk hk' (by omega) hcoeffs hframe) (ih (p + 1) _ (by omega))
    · generalize t.mem = m at heq hframe
      obtain rfl : t = s.drawnTo m (i + 1) := heq
      have hrow : SameOutsideRows k p 1 s.mem m := fun a hm _ =>
        hframe a fun j hj => hm 0 j one_pos (by omega)
      have hend : SplitRowsEnd k v p (n + 1) s (.failed (p + 0) i (s.drawnTo m (0 * (k - 1) + i + 1))) :=
        .failed n.succ_pos hi (by rwa [Nat.zero_mul, Nat.zero_add]) (by rwa [Nat.zero_mul, Nat.zero_add])
          (hrow.mono (by omega))
      rw [Nat.zero_mul, Nat.zero_add] at hend
      rw [splitRows, ht]
      exact hend

/-! ### The clearing of the output -/

/-- Clearing the output leaves 0 in every row and row length, and every other byte as it was (R177). -/
theorem clearRows_read {n k : ℕ} (hk : k ≤ 256) (m : Memory) (a : ℕ) :
    (clearRows n k m).read a = if inMatBlock n k a = true ∨ inRowlen n a = true then 0 else m.read a := by
  refine forUp_invariant (P := fun (i : ℕ) (x : Memory) => x.read a =
    if inMatBlock i k a = true ∨ inRowlen i a = true then 0 else m.read a) ?_ ?_
  · simp [inMatBlock_iff hk, inRowlen_iff]
  intro i x _ hx
  have hsucc : (inMatBlock (i + 1) k a = true ∨ inRowlen (i + 1) a = true) ↔
      (inMatBlock i k a = true ∨ inRowlen i a = true) ∨ (∃ c, c < k ∧ a = matAddr i c) ∨ a = rowlenAddr i := by
    simp only [inMatBlock_iff hk, inRowlen_iff, Nat.lt_succ_iff_lt_or_eq]
    grind
  obtain ⟨hrow, hout⟩ := forUp_write (n := k) (addr := matAddr i) (V := fun _ _ => 0) (m := x)
    (fun c c' hc hc' h => ((matAddr_inj (hc.trans_le hk) (hc'.trans_le hk)).mp h).2) fun _ _ _ _ => rfl
  rw [Memory.setRowlen, Memory.read_write]
  by_cases hl : a = rowlenAddr i
  · rw [if_pos hl, if_pos (hsucc.mpr (.inr (.inr hl)))]
  rw [if_neg hl]
  by_cases hm : ∃ c, c < k ∧ a = matAddr i c
  · rw [if_pos (hsucc.mpr (.inr (.inl hm)))]
    obtain ⟨c, hc, rfl⟩ := hm
    exact hrow c hc
  · refine (hout a fun c hc ha => hm ⟨c, hc, ha⟩).trans (hx.trans (if_congr ?_ rfl rfl))
    rw [hsucc]
    simp only [hm, hl, or_false]

/-! ### SPLIT_BYTE -/

section
variable {s : State} (v : Byte) (hs : s.sess = .split) (hk : 2 ≤ s.sessKL.toNat)
include hs hk

/-- SPLIT_BYTE ends with all rows made, or at the first draw to fail. -/
theorem exec_splitByte_cases :
    (∃ m, ShareRows s.sessKL.toNat v 0 s.sessNP.toNat s m ∧
      exec (.splitByte v) s = .next (State.okEnd 0 { s with
        mem := m, rng := s.rng.drop (s.sessNP.toNat * (s.sessKL.toNat - 1)),
        draws := s.draws + s.sessNP.toNat * (s.sessKL.toNat - 1), sessJ := s.sessJ + 1,
        sess := if s.sessJ + 1 = s.sessL then .idle else .split })) ∨
    ∃ p i m, p < s.sessNP.toNat ∧ i < s.sessKL.toNat - 1 ∧
      s.answer (p * (s.sessKL.toNat - 1) + i) = .fail ∧
      (∀ j, j < p * (s.sessKL.toNat - 1) + i → ∃ b, s.answer j = .byte b) ∧
      SameOutsideRows s.sessKL.toNat 0 s.sessNP.toNat s.mem m ∧
      exec (.splitByte v) s = .next (State.errorEnd ⟨4, BitVec.ofNat 8 i, BitVec.ofNat 8 p⟩ { s with
        mem := clearRows s.sessNP.toNat s.sessKL.toNat m, rng := s.rng.drop (p * (s.sessKL.toNat - 1) + i + 1),
        draws := s.draws + (p * (s.sessKL.toNat - 1) + i + 1), sess := .idle }) := by
  have hend := splitRows_end v hk (by omega) s.sessNP.toNat 0 s (by omega)
  generalize he : splitRows s.sessKL.toNat v 0 s.sessNP.toNat s = e at hend
  cases hend with
  | @rows m h =>
    refine .inl ⟨m, h, ?_⟩
    rw [exec_splitByte_of_rows hs he, ← hs]
    rfl
  | @failed p i m hp hi hfail hbytes frame =>
    rw [Nat.zero_add] at he
    exact .inr ⟨p, i, m, hp, hi, hfail, hbytes, frame, exec_splitByte_of_failed hs he⟩

/-- A SPLIT_BYTE that succeeds has made its rows. -/
theorem shareRows_of_exec_splitByte {t : State} (ht : exec (.splitByte v) s = .next t) (he : t.err.ecode = 0) :
    ShareRows s.sessKL.toNat v 0 s.sessNP.toNat s t.mem := by
  rcases exec_splitByte_cases v hs hk with ⟨m, h, hexec⟩ | ⟨p, i, m, -, -, -, -, -, hexec⟩ <;>
    obtain rfl := Host.Outcome.next.inj (hexec.symm.trans ht)
  · exact h
  · exact absurd he (Cause.err_ecode_ne_zero (.rngFailed _ _))

end

/-- Two places in rows of `n` elements that come at the same position are the same. -/
theorem row_major_inj {n r i r' i' : ℕ} (hi : i < n) (hi' : i' < n) (h : r * n + i = r' * n + i') :
    r = r' ∧ i = i' := by
  have hdiv (r : ℕ) {i : ℕ} (hi : i < n) : (r * n + i) / n = r := by
    rw [Nat.mul_comm, Nat.mul_add_div (by omega), Nat.div_eq_of_lt hi, Nat.add_zero]
  have hr : r = r' := by rw [← hdiv r hi, h, hdiv r' hi']
  subst hr
  exact ⟨rfl, Nat.add_left_cancel h⟩

end Sys2Proof.Machine

namespace Sys2Proof.Proofs

open Sys2Proof.Machine

/-- Settles O49: with no failing draw among them the loops make all rows. -/
theorem splitByteGeneratesTheShareRows : Obligations.SplitByteGeneratesTheShareRows := by
  intro v s hs hlegal n k hbytes
  rcases exec_splitByte_cases v hs (hlegal.split hs).1 with ⟨m, h, hexec⟩ | ⟨p, i, m, hp, hi, hfail, -⟩
  · refine ⟨_, hexec, rfl, fun p i hp hi => ?_, fun p hp => ?_, fun a => h.frame.read_eq (by omega)⟩
    · have hcoeff := h.coeffs p i hp hi
      rwa [Nat.zero_add] at hcoeff
    · have hconst := h.consts p hp
      have hlen := h.lens p hp
      rw [Nat.zero_add] at hconst hlen
      rw [BitVec.ofNat_toNat, BitVec.setWidth_eq] at hlen
      exact ⟨hconst, hlen⟩
  · obtain ⟨b, hb⟩ := hbytes (p * (k - 1) + i) (calc
      p * (k - 1) + i < p * (k - 1) + (k - 1) := Nat.add_lt_add_left hi _
      _ = (p + 1) * (k - 1) := (Nat.succ_mul _ _).symm
      _ ≤ n * (k - 1) := Nat.mul_le_mul_right _ hp)
    rw [hfail] at hb
    cases hb

/-- Settles O50: the loops stop at the draw named, and the output is then cleared. -/
theorem failedDrawClearsTheOutputAndAborts : Obligations.FailedDrawClearsTheOutputAndAborts := by
  intro v p i s hs hlegal n k j hp hi hfail hbytes
  have hk : k ≤ 256 := by omega
  rcases exec_splitByte_cases v hs (hlegal.split hs).1 with
    ⟨m, h, -⟩ | ⟨p', i', m, hp', hi', hfail', hbytes', frame, hexec⟩
  · have hbyte := h.coeffs p.toNat i.toNat hp hi
    rw [hfail] at hbyte
    cases hbyte
  · have hpos : p' * (k - 1) + i' = j := by
      rcases lt_trichotomy (p' * (k - 1) + i') j with hlt | heq | hgt
      · obtain ⟨b, hb⟩ := hbytes _ hlt
        rw [hfail'] at hb
        cases hb
      · exact heq
      · obtain ⟨b, hb⟩ := hbytes' _ hgt
        rw [hfail] at hb
        cases hb
    obtain ⟨rfl, rfl⟩ := row_major_inj hi' hi hpos
    simp only [BitVec.ofNat_toNat, BitVec.setWidth_eq] at hexec
    refine ⟨_, hexec, rfl, fun q c hq hc => ?_, fun q hq => ?_, fun a hm hl => ?_⟩
    · exact (clearRows_read hk m _).trans (if_pos (.inl ((inMatBlock_iff hk).mpr ⟨q, c, hq, hc, rfl⟩)))
    · exact (clearRows_read hk m _).trans (if_pos (.inr (inRowlen_iff.mpr ⟨q, hq, rfl⟩)))
    · refine (clearRows_read hk m a).trans ((if_neg ?_).trans (frame.read_eq hk hm hl))
      rw [hm, hl]
      simp

/-- Settles O57: the row's constant is MUL(c_0, v), which DIV by c_0 undoes. -/
theorem oneShareRowGivesTheSecretAway : Obligations.OneShareRowGivesTheSecretAway := by
  intro v s t p hp hs hlegal ht he hpn hc
  have hconst := (shareRows_of_exec_splitByte v hs (hlegal.split hs).1 ht he).consts p hpn
  rw [Nat.zero_add] at hconst
  rw [hconst]
  exact ((gfMul_eq_iff_eq_gfDiv hp hc).mp (gfMul_comm (bit8_of_legalPoly hp) v _)).symm

end Sys2Proof.Proofs
end

section
/-! PROOFS. COMBINE_BYTE on the rows of a split byte (43_codec.md R182, R184) and on two memories that agree on the
system's rows (R181). -/

namespace Sys2Proof.Machine

/-! ### The system of a split byte -/

/-- The target point (v, 0, ..., 0) of R174. -/
def targetPoint (v : Byte) (i : ℕ) : Byte := if i = 0 then v else 0

/-- Rows that satisfy R175 for `v` stand for equations that the target point solves. -/
theorem targetPoint_solves {p : Poly} {m : Memory} {d : ℕ} {v : Byte} (hd : 2 ≤ d)
    (hconst : ∀ r, r < d → m.mat r (d - 1) = gfMul p (m.mat r 0) v) :
    Solves p d (shareMatrix m d) (shareConst m d) (targetPoint v) := by
  obtain ⟨n, rfl⟩ : ∃ n, d = n + 1 := ⟨d - 1, by omega⟩
  intro r hr
  have hterm (i : ℕ) (hi : 1 ≤ i) : gfMul p (shareMatrix m (n + 1) r i) (targetPoint v i) = 0 := by
    rw [targetPoint, if_neg (by omega), gfMul_zero_right]
  rw [xorSum_eq_first fun i hi _ => hterm i hi, shareMatrix, if_neg (by omega), targetPoint, if_pos rfl, shareConst,
    hconst r hr]

/-- For K = 2 the matrix has the rows (c_0, 1). -/
theorem solves_shareMatrix_two_iff {p : Poly} (hp : p.getLsbD 8 = true) (m : Memory) (x : ℕ → Byte) :
    Solves p 2 (shareMatrix m 2) (fun _ => 0) x ↔
      gfMul p (m.mat 0 0) (x 0) = x 1 ∧ gfMul p (m.mat 1 0) (x 0) = x 1 := by
  have hrow (r : ℕ) : xorSum 2 (fun c => gfMul p (shareMatrix m 2 r c) (x c)) =
      gfMul p (m.mat r 0) (x 0) ^^^ x 1 := by
    have hfirst : xorSum 1 (fun c => gfMul p (shareMatrix m 2 r c) (x c)) = gfMul p (m.mat r 0) (x 0) :=
      xorSum_eq_first fun i hlo hhi => absurd hhi (Nat.not_lt.mpr hlo)
    have hlast : gfMul p (shareMatrix m 2 r 1) (x 1) = x 1 := one_gfMul hp (x 1)
    rw [xorSum_succ, hfirst, hlast]
  simp only [Solves, hrow, Nat.forall_lt_succ_left, Nat.not_lt_zero]
  simp [BitVec.xor_eq_zero_iff]

/-- The vector (1, a), which the row (a, 1) takes to 0. -/
def oneThen (a : Byte) (i : ℕ) : Byte := if i = 0 then 1 else a

/-- For K = 2 the matrix of the first two rows is singular exactly on equal coefficients (R184). -/
theorem nonsingular_shareMatrix_two_iff {p : Poly} (hp : Config.legalPoly p = true) (m : Memory) :
    Nonsingular p 2 (shareMatrix m 2) ↔ m.mat 0 0 ≠ m.mat 1 0 := by
  have hbit := bit8_of_legalPoly hp
  constructor
  · intro hns heq
    have hone : gfMul p (m.mat 0 0) (oneThen (m.mat 0 0) 0) = oneThen (m.mat 0 0) 1 :=
      (gfMul_comm hbit _ 1).trans (one_gfMul hbit _)
    have hx := (solves_shareMatrix_two_iff hbit m _).mpr ⟨hone, heq ▸ hone⟩
    have hzero : (1 : Byte) = 0 := hns _ hx 0 two_pos
    exact absurd hzero (by decide)
  · intro hne x hx i hi
    obtain ⟨h0, h1⟩ := (solves_shareMatrix_two_iff hbit m x).mp hx
    have hx0 : x 0 = 0 := by
      by_contra hx0
      refine hne ?_
      rw [(gfMul_eq_iff_eq_gfDiv hp hx0).mp h0, (gfMul_eq_iff_eq_gfDiv hp hx0).mp h1]
    have hx1 : x 1 = 0 := by rw [← h0, hx0, gfMul_zero hbit]
    obtain rfl | rfl : i = 0 ∨ i = 1 := by omega
    · exact hx0
    · exact hx1

/-! ### Memories that agree on a system -/

/-- `m` and `m'` hold the same system in MAT rows and columns below `d` and CONST below `d`. -/
structure SameSystem (d : ℕ) (m m' : Memory) : Prop where
  mat : ∀ r c, r < d → c < d → m'.mat r c = m.mat r c
  const : ∀ i, i < d → m'.const i = m.const i

theorem lowest_congr {n : ℕ} {f g : ℕ → Bool} (h : ∀ i, i < n → f i = g i) : lowest n f = lowest n g :=
  List.find?_congr fun i hi => h i (List.mem_range.mp hi)

section
variable {d piv col : ℕ} {m m' : Memory} (h : SameSystem d m m')
include h

theorem SameSystem.pivotRow_eq (hcol : col < d) : pivotRow m' d col = pivotRow m d col :=
  lowest_congr fun r hr => by rw [h.mat r col hr hcol]

variable (hd : d ≤ 256) (hcol : col < d)
include hd hcol

theorem SameSystem.swapRows (hpiv : piv < d) : SameSystem d (swapRows d piv col m) (swapRows d piv col m') where
  mat r c hr hc := by
    rw [swapRows_mat m hd hpiv hcol (hc.trans_le hd), swapRows_mat m' hd hpiv hcol (hc.trans_le hd),
      h.mat col c hcol hc, h.mat piv c hpiv hc, h.mat r c hr hc]
  const i hi := by
    rw [swapRows_const m hd hpiv hcol (hi.trans_le hd), swapRows_const m' hd hpiv hcol (hi.trans_le hd),
      h.const col hcol, h.const piv hpiv, h.const i hi]

theorem SameSystem.normalize (p : Poly) : SameSystem d (normalize p d col m) (normalize p d col m') where
  mat r c hr hc := by
    rw [normalize_mat p m hd hcol (hc.trans_le hd), normalize_mat p m' hd hcol (hc.trans_le hd), h.mat col c hcol hc,
      h.mat col col hcol hcol, h.mat r c hr hc]
  const i hi := by
    rw [normalize_const p m hd hcol (hi.trans_le hd), normalize_const p m' hd hcol (hi.trans_le hd),
      h.const col hcol, h.mat col col hcol hcol, h.const i hi]

theorem SameSystem.eliminate (p : Poly) : SameSystem d (eliminate p d col m) (eliminate p d col m') where
  mat r c hr hc := by
    rw [(eliminate_spec p m hd hcol).1 r c (hc.trans_le hd), (eliminate_spec p m' hd hcol).1 r c (hc.trans_le hd),
      h.mat col c hcol hc, h.mat r col hr hcol, h.mat r c hr hc]
  const i hi := by
    rw [(eliminate_spec p m hd hcol).2 i (hi.trans_le hd), (eliminate_spec p m' hd hcol).2 i (hi.trans_le hd),
      h.const col hcol, h.mat i col hi hcol, h.const i hi]

theorem SameSystem.reduceColumn (p : Poly) (hpiv : piv < d) :
    SameSystem d (reduceColumn p d piv col m) (reduceColumn p d piv col m') :=
  ((h.swapRows hd hcol hpiv).normalize hd hcol p).eliminate hd hcol p

end

/-- The two ends have the same value or the same cause. -/
inductive SameEnd : SolveEnd → SolveEnd → Prop where
  | solved (v : Byte) (m m' : Memory) : SameEnd (.solved v m) (.solved v m')
  | stopped (e : Cause) (m m' : Memory) : SameEnd (.stopped e m) (.stopped e m')

theorem SameSystem.solveColumns {d : ℕ} (p : Poly) (hd : d ≤ 256) (hpos : 0 < d) (k : ℕ) :
    ∀ (col : ℕ) (m m' : Memory), col + k = d → SameSystem d m m' →
      SameEnd (solveColumns p d k col m) (solveColumns p d k col m') := by
  induction k with
  | zero =>
    intro col m m' _ h
    rw [Machine.solveColumns, Machine.solveColumns, h.const 0 hpos]
    exact .solved _ _ _
  | succ k ih =>
    intro col m m' hk h
    have hcol : col < d := by omega
    rw [Machine.solveColumns, Machine.solveColumns, h.pivotRow_eq hcol]
    cases hpivot : pivotRow m d col with
    | none => exact .stopped _ _ _
    | some piv => exact ih (col + 1) _ _ (by omega) (h.reduceColumn hd hcol p (pivotRow_eq_some hpivot).1)

theorem SameSystem.solveCore {d : Byte} {m m' : Memory} (h : SameSystem d.toNat m m') (p : Poly) (hd : d ≠ 0)
    (hdims : checkDims m d d d = none) (hdims' : checkDims m' d d d = none) :
    SameEnd (solveCore p d d d m) (solveCore p d d d m') := by
  have hpos : 0 < d.toNat := Nat.pos_of_ne_zero fun h0 => hd (BitVec.eq_of_toNat_eq h0)
  rw [Machine.solveCore, Machine.solveCore, hdims, hdims']
  exact SameSystem.solveColumns p (by omega) hpos d.toNat 0 m m' (Nat.zero_add _) h

/-- `BuildSystem` reads MAT rows and columns below D only (R180). -/
theorem sameSystem_buildSystem {d : ℕ} {m m' : Memory} (hd : d ≤ 256)
    (hmat : ∀ r c, r < d → c < d → m'.mat r c = m.mat r c) : SameSystem d (buildSystem d m) (buildSystem d m') where
  mat r c hr hc := by
    rw [buildSystem_mat m' hd hr hc, buildSystem_mat m hd hr hc, shareMatrix, shareMatrix, hmat r c hr hc]
  const i hi := by
    rw [buildSystem_const m' hd hi, buildSystem_const m hd hi, shareConst, shareConst, hmat i (d - 1) hi (by omega)]

/-! ### The checks of COMBINE_BYTE -/

theorem sharesCheck_congr {m m' : Memory} {np : Byte} (hpos : 0 < np.toNat)
    (h : ∀ q, q < np.toNat → m'.rowlen q = m.rowlen q) : sharesCheck m' np = sharesCheck m np := by
  have hlow : lowest np.toNat (fun q => m'.rowlen q != m.rowlen 0) =
      lowest np.toNat (fun q => m.rowlen q != m.rowlen 0) := lowest_congr fun q hq => by rw [h q hq]
  rw [sharesCheck, h 0 hpos, hlow, sharesCheck]

end Sys2Proof.Machine

namespace Sys2Proof.Proofs

open Sys2Proof.Machine

/-- Settles O55: the target point is a solution, and a nonsingular system has no other. -/
theorem combineByteRecoversTheSplitByte : Obligations.CombineByteRecoversTheSplitByte := by
  intro v k s hp hs hk hle hrow
  have hk0 : k ≠ 0 := by rintro rfl; exact absurd hk (by decide)
  have hlen : ∀ p, p < s.sessNP.toNat → s.mem.rowlen p = k := fun p hpn => (hrow p hpn).1
  by_cases hns : Nonsingular s.poly k.toNat (shareMatrix s.mem k.toNat)
  · obtain ⟨t, ht, hend, -, hsol, -⟩ := combineByteSolvesTheShareSystem k s hp hs hk0 hle hlen hns
    have hv : v = t.mem.const 0 := (hsol (targetPoint v)).mp
      (targetPoint_solves hk fun r hr => (hrow r (hr.trans_le hle)).2) 0 (by omega)
    refine ⟨t, ht, fun _ => ⟨?_, ?_⟩, fun h => absurd hns h⟩ <;> rw [hend]
    · rfl
    · exact hv.symm
  · obtain ⟨t, col, ht, -, hend, -⟩ := singularCombineByteAborts k s hp hs hk0 hle hlen hns
    refine ⟨t, ht, fun h => absurd h hns, fun _ => ?_⟩
    rw [hend]
    exact ⟨rfl, rfl, rfl⟩

/-- Settles O56: the checks, and every step of the elimination, read what the memories agree on. -/
theorem combineByteUsesTheFirstRowsOnly : Obligations.CombineByteUsesTheFirstRowsOnly := by
  intro s m hlegal hlen hmat
  by_cases hs : s.sess = .combine
  swap
  · exact ⟨_, _, exec_combineByte_of_noCombine hs, exec_combineByte_of_noCombine (s := s.setMem m) hs,
      rfl, rfl, rfl, rfl⟩
  have hpos : 0 < s.sessNP.toNat := two_pos.trans_le (hlegal.combine hs).1
  have hcheck : sharesCheck m s.sessNP = sharesCheck s.mem s.sessNP := sharesCheck_congr hpos hlen
  cases hc : sharesCheck s.mem s.sessNP with
  | some e =>
    exact ⟨_, _, exec_combineByte_of_refused hs hc, exec_combineByte_of_refused (s := s.setMem m) hs (hcheck.trans hc),
      rfl, rfl, rfl, rfl⟩
  | none =>
    have hready : s.SharesReady (s.mem.rowlen 0) := .of_sharesCheck hs hc
    have hready' : (s.setMem m).SharesReady (s.mem.rowlen 0) :=
      hlen 0 hpos ▸ .of_sharesCheck (s := s.setMem m) hs (hcheck.trans hc)
    generalize s.mem.rowlen 0 = d at hmat hready hready'
    have hend := (sameSystem_buildSystem (by omega) hmat).solveCore s.poly hready.deg hready.checkDims_eq
      hready'.checkDims_eq
    generalize h : solveCore s.poly d d d (buildSystem d.toNat s.mem) = e,
      h' : solveCore s.poly d d d (buildSystem d.toNat m) = e' at hend
    cases hend with
    | solved v m₁ m₂ => exact ⟨_, _, hready.exec_of_solved h, hready'.exec_of_solved h', rfl, rfl, rfl, rfl⟩
    | stopped e m₁ m₂ => exact ⟨_, _, hready.exec_of_stopped h, hready'.exec_of_stopped h', rfl, rfl, rfl, rfl⟩

/-- Settles O58: COMBINE_BYTE by whether the two-row system is singular. -/
theorem twoRowSystemIsSingularExactlyOnEqualCoefficients :
    Obligations.TwoRowSystemIsSingularExactlyOnEqualCoefficients := by
  intro s hp hs hnp hlen
  have hns := nonsingular_shareMatrix_two_iff hp s.mem
  by_cases heq : s.mem.mat 0 0 = s.mem.mat 1 0
  · obtain ⟨t, col, ht, -, hend, -⟩ := singularCombineByteAborts 2 s hp hs (by decide) hnp hlen
      (fun h => hns.mp h heq)
    have herr : t.err.ecode = 3 := by rw [hend]; rfl
    exact ⟨t, ht, iff_of_true herr heq, fun h => absurd herr h⟩
  · obtain ⟨t, ht, hend, -⟩ := combineByteSolvesTheShareSystem 2 s hp hs (by decide) hnp hlen (hns.mpr heq)
    have herr : t.err = ⟨0, 0, 0⟩ := by rw [hend]; rfl
    refine ⟨t, ht, iff_of_false ?_ heq, fun _ => herr⟩
    rw [herr]
    decide

end Sys2Proof.Proofs
end

section
/-! PROOFS. HOST_SPLIT (43_codec.md R185, R187): the shares it returns hold, for each byte of the secret in order, one
row of the SPLIT_BYTE of that byte. -/

namespace Sys2Proof.Machine

/-! ### Commands of a protocol -/

/-- A protocol that returns a value went on after its command, which reported no error (R185, R186). -/
theorem afterCmd_eq_ok {α : Type} {i : Instr} {s u : State} {go : State → HostEnd α} {x : α}
    (h : afterCmd i s go = .ok x u) : ∃ t, cmdWait i s = .next t ∧ t.err.ecode = 0 ∧ go t = .ok x u := by
  rw [afterCmd] at h
  split at h
  · next t ht =>
    split_ifs at h with he
    exact ⟨t, ht, he, h⟩
  · cases h
  · cases h

/-! ### The loop over the secret -/

/-- The shares after one more row for each party (R185). -/
theorem mem_zipWith_row {f : ℕ → List Byte} {n : ℕ} {shares : List Share} {sh : Share}
    (h : sh ∈ List.zipWith (fun sh r => sh ++ [r]) shares ((List.range n).map f)) :
    ∃ sh' ∈ shares, ∃ p, p < n ∧ sh = sh' ++ [f p] := by
  obtain ⟨p, hp, rfl⟩ := List.mem_iff_getElem.mp h
  simp only [List.length_zipWith, List.length_map, List.length_range, lt_inf_iff] at hp
  refine ⟨shares[p], List.getElem_mem hp.1, p, hp.2, ?_⟩
  simp

/-- If every SPLIT_BYTE from a state in `I` that succeeds leaves a state in `I` whose rows have the property `R` of its
byte, then the rows of each share returned have the property `R` of the secret's bytes, one by one. -/
theorem splitLoop_forall₂ {n k : ℕ} {I : State → Prop} {R : Byte → List Byte → Prop}
    (hstep : ∀ b s t, I s → cmdWait (.splitByte b) s = .next t → t.err.ecode = 0 →
      I t ∧ ∀ p, p < n → R b (shareRow t k p)) {out : List Share} {u : State} (rest : List Byte) :
    ∀ (done : List Byte) (shares : List Share) (s : State), I s → shares.length = n →
      (∀ sh ∈ shares, List.Forall₂ R done sh) → splitLoop n k rest shares s = .ok out u →
      out.length = n ∧ ∀ sh ∈ out, List.Forall₂ R (done ++ rest) sh := by
  induction rest with
  | nil =>
    intro done shares s _ hlen hall h
    cases h
    rw [List.append_nil]
    exact ⟨hlen, hall⟩
  | cons b rest ih =>
    intro done shares s hI hlen hall h
    obtain ⟨t, ht, he, hgo⟩ := afterCmd_eq_ok h
    obtain ⟨hIt, hrows⟩ := hstep b s t hI ht he
    rw [← List.singleton_append, ← List.append_assoc]
    refine ih (done ++ [b]) _ t hIt ?_ (fun sh hsh => ?_) hgo
    · simp [hlen]
    · obtain ⟨sh', hsh', p, hp, rfl⟩ := mem_zipWith_row hsh
      exact List.rel_append (hall sh' hsh') (.cons (hrows p hp) .nil)

/-- HOST_SPLIT refuses what its registers cannot represent, opens the session and runs the loop (R185, R190). -/
theorem hostSplit_eq_ok {secret : List Byte} {n k : ℕ} {s u : State} {shares : List Share}
    (h : hostSplit secret n k s = .ok shares u) : n ≤ 65535 ∧ k ≤ 65535 ∧
      ∃ t, cmdWait .splitInit (w32 0x020 secret.length (w32 0x01C k (w32 0x018 n s))) = .next t ∧
        t.err.ecode = 0 ∧ splitLoop n k secret (List.replicate n []) t = .ok shares u := by
  rw [hostSplit] at h
  split_ifs at h with hbig
  exact ⟨by omega, by omega, afterCmd_eq_ok h⟩

@[simp] theorem length_shareRow (s : State) (k p : ℕ) : (shareRow s k p).length = k := by simp [shareRow]

end Sys2Proof.Machine

namespace Sys2Proof.Proofs

open Sys2Proof.Machine

/-- Settles O59: every row the loop reads has K bytes, whatever the block holds. -/
theorem splitSharesHaveTheStatedShape : Obligations.SplitSharesHaveTheStatedShape := by
  intro secret n k s u shares h
  obtain ⟨-, -, t, -, -, hloop⟩ := hostSplit_eq_ok h
  obtain ⟨hlen, hall⟩ := splitLoop_forall₂ (I := fun _ => True) (R := fun _ row => row.length = k)
    (fun _ _ t _ _ _ => ⟨trivial, fun p _ => length_shareRow t k p⟩) secret [] _ t trivial List.length_replicate
    (fun sh hsh => List.eq_of_mem_replicate hsh ▸ .nil) hloop
  rw [List.nil_append] at hall
  refine ⟨hlen, fun sh hsh => ⟨(hall sh hsh).length_eq.symm, fun row hrow => ?_⟩⟩
  obtain ⟨j, hj, rfl⟩ := List.mem_iff_getElem.mp hrow
  exact (hall sh hsh).get ((hall sh hsh).length_eq ▸ hj) hj

end Sys2Proof.Proofs
end

section
/-! PROOFS. HOST_COMBINE of the shares of a HOST_SPLIT (43_codec.md R182, R185, R186): what the accesses of a protocol
do on an idle block, the rows that a SPLIT_BYTE makes and the host reads, and the byte that COMBINE_BYTE makes of
them. -/

namespace Sys2Proof.Machine

/-! ### Accesses on an idle block -/

section
variable {s : State} {off : ℕ} {n : Width} {v : Word}

/-- With BUSY = 0 a write that BUSY = 1 would drop takes its effect `f` (R79). -/
theorem hostWrite_register_of_idle {f : State → State} (h : off < 0x100) (ha : off % 4 = 0)
    (hf : ∀ t, regWrite (regAt off) v t = unlessBusy f t) (hp : s.pending = none) :
    hostWrite off .word v s = (f s).answerWith .done := by
  simp [hostWrite, regionAt_register h, accessFails_register h ha, hf, unlessBusy, State.busy, hp]

theorem w32_register_of_idle {x : ℕ} {f : State → State} (h : off < 0x100) (ha : off % 4 = 0)
    (hf : ∀ t, regWrite (regAt off) (BitVec.ofNat 32 x) t = unlessBusy f t) (hp : s.pending = none) :
    w32 off x s = (f s).answerWith .done :=
  hostWrite_register_of_idle h ha hf hp

theorem hostWrite_buffer_of_idle (h : BufferAccess off n) (hp : s.pending = none) :
    hostWrite off n v s = (s.setMem (writeBytes off n v s.mem)).answerWith .done := by
  rcases h.regionAt_eq with hr | hr | hr | hr <;>
    simp [hostWrite, hr, h.accessFails_eq, bufWrite, unlessBusy, State.busy, hp]

theorem w8_of_idle {b : Byte} (h : isByteBufAddr off = true) (hp : s.pending = none) :
    w8 off b s = (s.setMem (s.mem.write off b)).answerWith .done := by
  have hbyte : byteOfWord (b.setWidth 32) 0 = b := by
    refine BitVec.eq_of_toNat_eq ?_
    rw [byteOfWord, BitVec.extractLsb'_toNat, BitVec.toNat_setWidth_of_le (by decide)]
    exact Nat.mod_eq_of_lt b.isLt
  rw [w8, hostWrite_buffer_of_idle ⟨Nat.mod_one off, .inl h⟩ hp]
  simp [writeBytes, Width.bytes, forUp, hbyte]

/-- On an idle block `CMD w; WAIT` is the command's own execution (R110, R111). -/
theorem exec_of_cmdWait {i : Instr} {t : State} (ht : cmdWait i s = .next t) (hp : s.pending = none) :
    exec i ((s.issue (encode i)).answerWith .done) = .next t := by
  rw [cmdWait, hostWrite_register_of_idle (by decide) (by decide) (fun _ => rfl) hp, completion_of_pending rfl,
    execute_of_instr (decode_encode i)] at ht
  exact ht

end

/-- `t` is `s` with the buffers `m`, but for the port's last answer. -/
def State.Loaded (s : State) (m : Memory) (t : State) : Prop := ∃ r, t = { s with mem := m, reply := r }

theorem State.Loaded.refl (s : State) : s.Loaded s.mem s := ⟨s.reply, rfl⟩

theorem State.Loaded.trans {s t u : State} {m m' : Memory} (h : s.Loaded m t) (h' : t.Loaded m' u) :
    s.Loaded m' u := by
  obtain ⟨r, rfl⟩ := h
  obtain ⟨r', rfl⟩ := h'
  exact ⟨r', rfl⟩

theorem State.Loaded.w8 {s : State} {a : ℕ} {b : Byte} (h : isByteBufAddr a = true) (hp : s.pending = none) :
    s.Loaded (s.mem.write a b) (w8 a b s) :=
  ⟨_, w8_of_idle h hp⟩

/-- A loop of accesses loads what the loop over the buffers alone makes of them. -/
theorem State.Loaded.loop {n : ℕ} {f : ℕ → State → State} {g : ℕ → Memory → Memory} {s : State}
    (hp : s.pending = none) (hf : ∀ (i : ℕ) (t : State), i < n → t.pending = none → t.Loaded (g i t.mem) (f i t)) :
    s.Loaded (forUp n g s.mem) (forUp n f s) := by
  induction n with
  | zero => exact .refl s
  | succ n ih =>
    obtain ⟨r, hr⟩ := ih fun i t hi => hf i t (hi.trans n.lt_succ_self)
    rw [forUp_succ, forUp_succ]
    have hpass := hf n (forUp n f s) n.lt_succ_self (by rw [hr]; exact hp)
    rw [hr] at hpass ⊢
    exact State.Loaded.trans ⟨r, rfl⟩ hpass

/-! ### The rows the host loads (R186) -/

/-- What `loadRow` does to the buffers. -/
def storeRow (p : ℕ) (row : List Byte) (m : Memory) : Memory :=
  (forUp row.length (fun c x => x.setMat p c (row.getD c 0)) m).setRowlen p (BitVec.ofNat 8 row.length)

/-- What `loadRows` does to the buffers. -/
def storeRows (rows : List (List Byte)) (m : Memory) : Memory :=
  forUp rows.length (fun p x => storeRow p (rows.getD p []) x) m

theorem isByteBufAddr_matAddr {r c : ℕ} (hr : r < 256) (hc : c < 256) : isByteBufAddr (matAddr r c) = true := by
  rw [isByteBufAddr_iff, matAddr]; omega

theorem isByteBufAddr_rowlenAddr {r : ℕ} (hr : r < 256) : isByteBufAddr (rowlenAddr r) = true := by
  rw [isByteBufAddr_iff, rowlenAddr]; omega

theorem loadRow_loaded {p : ℕ} {row : List Byte} {s : State} (hidle : s.pending = none) (hp : p < 256)
    (hrow : row.length ≤ 256) : s.Loaded (storeRow p row s.mem) (loadRow p row s) := by
  obtain ⟨r, hr⟩ := State.Loaded.loop (n := row.length) (f := fun c t => w8 (matAddr p c) (row.getD c 0) t)
    (g := fun c x => x.setMat p c (row.getD c 0)) hidle
    fun c t hc ht => .w8 (isByteBufAddr_matAddr hp (hc.trans_le hrow)) ht
  rw [loadRow, hr]
  exact State.Loaded.trans ⟨r, rfl⟩ (.w8 (isByteBufAddr_rowlenAddr hp) hidle)

theorem loadRows_loaded {rows : List (List Byte)} {s : State} (hidle : s.pending = none) (hn : rows.length ≤ 256)
    (hrows : ∀ row ∈ rows, row.length ≤ 256) : s.Loaded (storeRows rows s.mem) (loadRows rows s) := by
  refine .loop hidle fun p t hp ht => loadRow_loaded ht (hp.trans_le hn) (hrows _ ?_)
  rw [List.getD_eq_getElem _ _ hp]
  exact List.getElem_mem hp

theorem storeRow_mat {p r c : ℕ} {row : List Byte} (m : Memory) (hrow : row.length ≤ 256) (hp : p < 256)
    (hc : c < 256) :
    (storeRow p row m).mat r c = if r = p ∧ c < row.length then row.getD c 0 else m.mat r c := by
  rw [storeRow, Memory.mat_setRowlen _ _ hp]
  exact (forUp_row m (fun c _ => row.getD c 0) hrow fun _ _ _ _ => rfl).1 r c hc

theorem storeRow_rowlen {p r : ℕ} {row : List Byte} (m : Memory) (hr : r < 256) :
    (storeRow p row m).rowlen r = if r = p then BitVec.ofNat 8 row.length else m.rowlen r := by
  rw [storeRow, Memory.rowlen_setRowlen]
  congr 1
  exact forUp_read_unchanged fun c x _ => Memory.rowlen_setMat x _ hr

/-- Row `p` of the buffers is `row`. -/
structure Memory.HoldsRow (m : Memory) (p : ℕ) (row : List Byte) : Prop where
  rowlen : m.rowlen p = BitVec.ofNat 8 row.length
  mat : ∀ c, c < row.length → m.mat p c = row.getD c 0

theorem storeRows_holdsRow {rows : List (List Byte)} (m : Memory) (hn : rows.length ≤ 256)
    (hrows : ∀ row ∈ rows, row.length ≤ 256) :
    ∀ p, p < rows.length → (storeRows rows m).HoldsRow p (rows.getD p []) := by
  have hlen {p : ℕ} (hp : p < rows.length) : (rows.getD p []).length ≤ 256 := by
    rw [List.getD_eq_getElem _ _ hp]
    exact hrows _ (List.getElem_mem hp)
  refine forUp_invariant (P := fun (i : ℕ) (x : Memory) => ∀ p, p < i → x.HoldsRow p (rows.getD p [])) nofun ?_
  intro i x hi hx p hp
  have hi256 : i < 256 := hi.trans_le hn
  obtain rfl | hpi : p = i ∨ p < i := by omega
  · refine ⟨(storeRow_rowlen x hi256).trans (if_pos rfl), fun c hc => ?_⟩
    exact (storeRow_mat x (hlen hi) hi256 (hc.trans_le (hlen hi))).trans (if_pos ⟨rfl, hc⟩)
  · obtain ⟨hrl, hm⟩ := hx p hpi
    have hp256 : p < 256 := hpi.trans hi256
    refine ⟨(storeRow_rowlen x hp256).trans ((if_neg hpi.ne).trans hrl), fun c hc => ?_⟩
    exact (storeRow_mat x (hlen hi) hi256 (hc.trans_le (hlen (hpi.trans hi)))).trans
      ((if_neg fun h => hpi.ne h.1).trans (hm c hc))

/-! ### What a command leaves when it succeeds -/

theorem exec_idle {i : Instr} {s t : State} (ht : exec i s = .next t) : t.pending = none ∧ t.poly = s.poly := by
  obtain ⟨t', ht', hend⟩ := exec_end i s
  obtain rfl := Host.Outcome.next.inj (ht'.symm.trans ht)
  have hpending : t'.pending = none := by
    obtain ⟨u, ⟨v, rfl⟩ | ⟨c, rfl⟩, -⟩ := hend.complete_or_raise <;> rfl
  obtain ⟨_, ⟨m, r, d, -, -⟩, heq⟩ := hend.shape
  exact ⟨hpending, by rw [heq]⟩

section
variable {s t : State}

/-- SESS_NK after a successful command (R35). -/
theorem exec_sessNK {i : Instr} (ht : exec i s = .next t) (he : t.err.ecode = 0) :
    t.sessNP.toNat = (if i = .splitInit then s.cfgN.toNat
      else if i = .combineInit then s.cfgP.toNat else s.sessNP.toNat) ∧
    t.sessKL.toNat = (if i = .splitInit then s.cfgK.toNat
      else if i = .combineInit then 0 else s.sessKL.toNat) := by
  obtain ⟨t', ht', -, hok⟩ := Proofs.sessionCountersFollowSuccessOnly i s
  obtain rfl := Host.Outcome.next.inj (ht'.symm.trans ht)
  exact (hok he).2.2

theorem ecode_ne_zero_of_errorEnd {i : Instr} {u : State} {c : Cause} (h : exec i s = .next (u.errorEnd c.err))
    (ht : exec i s = .next t) : t.err.ecode ≠ 0 := by
  obtain rfl := Host.Outcome.next.inj (h.symm.trans ht)
  exact c.err_ecode_ne_zero

theorem splitCheck_of_success (ht : exec .splitInit s = .next t) (he : t.err.ecode = 0) :
    splitCheck s.cfgN s.cfgK s.cfgL = none := by
  by_cases hs : s.sess = .idle
  · cases hc : splitCheck s.cfgN s.cfgK s.cfgL with
    | none => rfl
    | some e => exact absurd he (ecode_ne_zero_of_errorEnd (exec_splitInit_of_refused hs hc) ht)
  · exact absurd he (ecode_ne_zero_of_errorEnd (c := .notIdle) (exec_splitInit_of_open hs) ht)

theorem combineCheck_of_success (ht : exec .combineInit s = .next t) (he : t.err.ecode = 0) :
    combineCheck s.mem s.cfgP = none := by
  by_cases hs : s.sess = .idle
  · cases hc : combineCheck s.mem s.cfgP with
    | none => rfl
    | some e => exact absurd he (ecode_ne_zero_of_errorEnd (exec_combineInit_of_refused hs hc) ht)
  · exact absurd he (ecode_ne_zero_of_errorEnd (c := .notIdle) (exec_combineInit_of_open hs) ht)

theorem split_of_success {v : Byte} (ht : exec (.splitByte v) s = .next t) (he : t.err.ecode = 0) :
    s.sess = .split := by
  by_contra hs
  exact ecode_ne_zero_of_errorEnd (c := .noSplit) (exec_splitByte_of_noSplit v hs) ht he

theorem combine_of_success (ht : exec .combineByte s = .next t) (he : t.err.ecode = 0) :
    s.sess = .combine ∧ sharesCheck s.mem s.sessNP = none := by
  have hs : s.sess = .combine := by
    by_contra hs
    exact ecode_ne_zero_of_errorEnd (c := .noCombine) (exec_combineByte_of_noCombine hs) ht he
  cases hc : sharesCheck s.mem s.sessNP with
  | none => exact ⟨hs, rfl⟩
  | some e => exact absurd he (ecode_ne_zero_of_errorEnd (exec_combineByte_of_refused hs hc) ht)

end

/-! ### Rows of a split byte -/

/-- A row of K bytes that satisfies R175 for the byte `v`. -/
structure IsShareRow (poly : Poly) (k v : Byte) (row : List Byte) : Prop where
  length : row.length = k.toNat
  const : row.getD (k.toNat - 1) 0 = gfMul poly (row.getD 0 0) v

theorem getD_shareRow {s : State} {k p c : ℕ} (hp : p < 256) (hc : c < k) (hc' : c < 256) :
    (shareRow s k p).getD c 0 = s.mem.mat p c := by
  rw [List.getD_eq_getElem _ _ (by rw [length_shareRow]; exact hc)]
  simp only [shareRow, List.getElem_map, List.getElem_range]
  exact byteAt_of_isBufAddr s (isBufAddr_matAddr hp hc')

/-- The block between the commands of HOST_SPLIT: idle, and the session has N parties and K bytes a row. -/
structure Splitting (poly : Poly) (n : ℕ) (k : Byte) (s : State) : Prop where
  idle : s.pending = none
  poly : s.poly = poly
  parties : s.sessNP.toNat = n
  rowBytes : s.sessKL = k

theorem Splitting.splitByte {poly : Poly} {n : ℕ} {k b : Byte} {s t : State} (h : Splitting poly n k s)
    (hk : 2 ≤ k.toNat) (ht : cmdWait (.splitByte b) s = .next t) (he : t.err.ecode = 0) :
    Splitting poly n k t ∧ ∀ p, p < n → IsShareRow poly k b (shareRow t k.toNat p) := by
  obtain ⟨hidle, rfl, rfl, rfl⟩ := h
  replace ht := exec_of_cmdWait ht hidle
  obtain ⟨hidle', hpoly⟩ := exec_idle ht
  obtain ⟨hnp, hkl⟩ := exec_sessNK ht he
  refine ⟨⟨hidle', hpoly, hnp, BitVec.eq_of_toNat_eq hkl⟩, fun p hp => ⟨length_shareRow _ _ _, ?_⟩⟩
  have hconst := (shareRows_of_exec_splitByte b (split_of_success ht he) hk ht he).consts p hp
  rw [Nat.zero_add] at hconst
  rw [getD_shareRow (by omega) (by omega) (by omega), getD_shareRow (by omega) (by omega) (by omega)]
  exact hconst

/-- A HOST_SPLIT that returns shares of an idle block has opened a session of N parties and K bytes a row. -/
theorem splitting_of_hostSplit {secret : List Byte} {n k : ℕ} {s u : State} {shares : List Share}
    (hidle : s.pending = none) (h : hostSplit secret n k s = .ok shares u) :
    ∃ (t : State) (k' : Byte), k'.toNat = k ∧ 2 ≤ k ∧ Splitting s.poly n k' t ∧
      splitLoop n k secret (List.replicate n []) t = .ok shares u := by
  obtain ⟨hn, hk, t, ht, he, hloop⟩ := hostSplit_eq_ok h
  have half {x : ℕ} (hx : x ≤ 65535) : ((BitVec.ofNat 32 x).setWidth 16 : Half).toNat = x := by
    rw [BitVec.toNat_setWidth, BitVec.toNat_ofNat]; omega
  have hcfg : w32 0x020 secret.length (w32 0x01C k (w32 0x018 n s)) = State.answerWith .done { s with
      cfgN := (BitVec.ofNat 32 n).setWidth 16, cfgK := (BitVec.ofNat 32 k).setWidth 16,
      cfgL := BitVec.ofNat 32 secret.length, reply := some .done } := by
    rw [w32_register_of_idle (off := 0x018) (by decide) (by decide) (fun _ => rfl) hidle,
      w32_register_of_idle (off := 0x01C) (by decide) (by decide) (fun _ => rfl),
      w32_register_of_idle (off := 0x020) (by decide) (by decide) (fun _ => rfl)]
    · rfl
    · exact hidle
    · exact hidle
  rw [hcfg] at ht
  replace ht := exec_of_cmdWait ht hidle
  obtain ⟨hidle', hpoly⟩ := exec_idle ht
  obtain ⟨hnp, hkl⟩ := exec_sessNK ht he
  obtain ⟨hk2, -⟩ := splitCheck_eq_none (splitCheck_of_success ht he)
  exact ⟨t, t.sessKL, hkl.trans (half hk), hk2.trans_eq (half hk), ⟨hidle', hpoly, hnp.trans (half hn), rfl⟩, hloop⟩

/-- Each share of a HOST_SPLIT has, for each byte of the secret, a row that satisfies R175 for it. -/
theorem isShareRow_of_hostSplit {secret : List Byte} {n k : ℕ} {s u : State} {shares : List Share}
    (hidle : s.pending = none) (h : hostSplit secret n k s = .ok shares u) :
    ∃ k' : Byte, 2 ≤ k'.toNat ∧ ∀ sh ∈ shares, List.Forall₂ (IsShareRow s.poly k') secret sh := by
  obtain ⟨t, k', rfl, hk, hsplitting, hloop⟩ := splitting_of_hostSplit hidle h
  exact ⟨k', hk, (splitLoop_forall₂ (fun b s t hs => hs.splitByte hk) secret [] _ t hsplitting List.length_replicate
    (fun sh hsh => List.eq_of_mem_replicate hsh ▸ .nil) hloop).2⟩

/-! ### The byte of the rows -/

/-- A COMBINE_BYTE that succeeds on rows of a split byte gives the byte (R182). -/
theorem result_of_combineByte {s t : State} {k v : Byte} (ht : exec .combineByte s = .next t) (he : t.err.ecode = 0)
    (hp : Config.legalPoly s.poly = true) (hk : 2 ≤ k.toNat)
    (hrow : ∀ p, p < s.sessNP.toNat → s.mem.rowlen p = k ∧
      s.mem.mat p (k.toNat - 1) = gfMul s.poly (s.mem.mat p 0) v) : t.result = v := by
  obtain ⟨hs, hc⟩ := combine_of_success ht he
  obtain ⟨-, hrows, hdeg⟩ := sharesCheck_eq_none hc
  have hpos : 0 < s.sessNP.toNat :=
    (Nat.pos_of_ne_zero fun h => hdeg (BitVec.eq_of_toNat_eq h)).trans_le hrows
  rw [(hrow 0 hpos).1] at hrows
  obtain ⟨t', ht', hns, hsing⟩ := Proofs.combineByteRecoversTheSplitByte v k s hp hs hk hrows hrow
  obtain rfl := Host.Outcome.next.inj (ht'.symm.trans ht)
  by_cases h : Nonsingular s.poly k.toNat (shareMatrix s.mem k.toNat)
  · exact (hns h).2
  · rw [(hsing h).1] at he
    exact absurd he (by decide)

/-- The block between the commands of HOST_COMBINE: idle, and the session has P parties. -/
structure Combining (poly : Poly) (np : ℕ) (s : State) : Prop where
  idle : s.pending = none
  poly : s.poly = poly
  parties : s.sessNP.toNat = np

/-- One byte index of HOST_COMBINE. -/
theorem Combining.combineByte {poly : Poly} {k v : Byte} {rows : List (List Byte)} {s t : State}
    (h : Combining poly rows.length s) (hp : Config.legalPoly poly = true) (hk : 2 ≤ k.toNat)
    (hrows : ∀ row ∈ rows, IsShareRow poly k v row) (ht : cmdWait .combineByte (loadRows rows s) = .next t)
    (he : t.err.ecode = 0) : Combining poly rows.length t ∧ t.result = v := by
  obtain ⟨hidle, rfl, hnp⟩ := h
  have hn : rows.length ≤ 256 := by omega
  have hlen : ∀ row ∈ rows, row.length ≤ 256 := fun row hrow => by rw [(hrows row hrow).length]; omega
  obtain ⟨r, hr⟩ := loadRows_loaded hidle hn hlen
  rw [hr] at ht
  replace ht := exec_of_cmdWait ht hidle
  obtain ⟨hidle', hpoly⟩ := exec_idle ht
  refine ⟨⟨hidle', hpoly, (exec_sessNK ht he).1.trans hnp⟩, result_of_combineByte (v := v) ht he hp hk ?_⟩
  intro p hpn
  have hpr : p < rows.length := hnp ▸ hpn
  obtain ⟨hrl, hm⟩ := storeRows_holdsRow s.mem hn hlen p hpr
  obtain ⟨hlength, hconst⟩ := hrows (rows.getD p []) (by rw [List.getD_eq_getElem _ _ hpr]; exact List.getElem_mem hpr)
  rw [hlength, BitVec.ofNat_toNat, BitVec.setWidth_eq] at hrl
  refine ⟨hrl, ?_⟩
  rw [← hm _ (by omega), ← hm _ (by omega)] at hconst
  exact hconst

/-- The rows of byte index `j` of the shares are rows of byte `j` of the secret. -/
theorem isShareRow_of_mem_rowsAt {poly : Poly} {k : Byte} {secret row : List Byte} {parts : List Share} {j : ℕ}
    (hparts : ∀ sh ∈ parts, List.Forall₂ (IsShareRow poly k) secret sh) (hj : j < secret.length)
    (hrow : row ∈ rowsAt parts j) : IsShareRow poly k secret[j] row := by
  obtain ⟨sh, hsh, rfl⟩ := List.mem_map.mp hrow
  have hjsh : j < sh.length := (hparts sh hsh).length_eq ▸ hj
  rw [List.getD_eq_getElem _ _ hjsh]
  exact (hparts sh hsh).get hj hjsh

/-- The loop of HOST_COMBINE appends the secret's bytes from byte index `j` on. -/
theorem combineLoop_eq_ok {poly : Poly} {k : Byte} {secret out : List Byte} {parts : List Share} {u : State}
    (hp : Config.legalPoly poly = true) (hk : 2 ≤ k.toNat)
    (hparts : ∀ sh ∈ parts, List.Forall₂ (IsShareRow poly k) secret sh) (n : ℕ) :
    ∀ (j : ℕ) (acc : List Byte) (s : State), j + n = secret.length → Combining poly parts.length s →
      combineLoop parts j n acc s = .ok out u → out = acc ++ secret.drop j := by
  induction n with
  | zero =>
    intro j acc s hj _ h
    cases h
    rw [List.drop_of_length_le (i := j) hj.ge, List.append_nil]
  | succ n ih =>
    intro j acc s hj hs h
    have hlt : j < secret.length := by omega
    rw [combineLoop] at h
    split_ifs at h
    obtain ⟨t, ht, he, hgo⟩ := afterCmd_eq_ok h
    have hlen : (rowsAt parts j).length = parts.length := List.length_map _
    rw [← hlen] at hs
    obtain ⟨hs', hresult⟩ := hs.combineByte hp hk (fun row => isShareRow_of_mem_rowsAt hparts hlt) ht he
    rw [ih (j + 1) _ t (by omega) (hlen ▸ hs') hgo, hresult, List.append_assoc, List.singleton_append,
      ← List.drop_eq_getElem_cons hlt]

/-- A HOST_COMBINE that returns bytes on an idle block has opened a session of its parties (R186). -/
theorem combining_of_hostCombine {parts : List Share} {s u : State} {out : List Byte} (hidle : s.pending = none)
    (h : hostCombine parts s = .ok out u) : parts ≠ [] ∧ ∃ t, Combining s.poly parts.length t ∧
      combineLoop parts 0 (parts.headD []).length [] t = .ok out u := by
  rw [hostCombine] at h
  split_ifs at h with hbig
  obtain ⟨t, ht, he, hloop⟩ := afterCmd_eq_ok h
  have hcfg : w32 0x024 parts.length s = State.answerWith .done { s with
      cfgP := (BitVec.ofNat 32 parts.length).setWidth 16 } :=
    w32_register_of_idle (off := 0x024) (by decide) (by decide) (fun _ => rfl) hidle
  have hP : ((BitVec.ofNat 32 parts.length).setWidth 16 : Half).toNat = parts.length := by
    rw [BitVec.toNat_setWidth, BitVec.toNat_ofNat]; omega
  obtain ⟨r, hr⟩ := State.Loaded.loop (n := min parts.length 255) (s := w32 0x024 parts.length s)
    (f := fun p t => w32 (olenAddr p) (parts.getD p []).length t)
    (g := fun p x => writeBytes (olenAddr p) .word (BitVec.ofNat 32 (parts.getD p []).length) x)
    (by rw [hcfg]; exact hidle) fun p t hpn ht => ⟨_, hostWrite_buffer_of_idle (.of_ranges (by
      simp only [olenAddr, Width.bytes]; omega) (.inr (.inr ⟨rfl, by simp only [olenAddr]; omega⟩))) ht⟩
  rw [loadLengths, hr, hcfg] at ht
  replace ht := exec_of_cmdWait ht hidle
  obtain ⟨hidle', hpoly⟩ := exec_idle ht
  obtain ⟨htwo, -⟩ := combineCheck_eq_none (combineCheck_of_success ht he)
  refine ⟨?_, t, ⟨hidle', hpoly, (exec_sessNK ht he).1.trans hP⟩, hloop⟩
  rintro rfl
  exact absurd htwo (Nat.not_le.mpr (hP.trans_lt two_pos))

end Sys2Proof.Machine

namespace Sys2Proof.Proofs

open Sys2Proof.Machine

/-- Settles O60: the supplied rows of each byte are rows of that byte, of which a COMBINE_BYTE that succeeds makes the
byte. -/
theorem combinedSharesGiveTheSecretBack : Obligations.CombinedSharesGiveTheSecretBack := by
  intro secret n k s t u v shares parts out hp hidle hsplit hsub hpoly hidle' hcombine
  obtain ⟨k', hk, hshares⟩ := isShareRow_of_hostSplit hidle hsplit
  have hparts : ∀ sh ∈ parts, List.Forall₂ (IsShareRow s.poly k') secret sh := fun sh hsh => hshares sh (hsub sh hsh)
  obtain ⟨hne, w, hw, hloop⟩ := combining_of_hostCombine hidle' hcombine
  obtain ⟨sh, rest, rfl⟩ := List.exists_cons_of_ne_nil hne
  have hlen : sh.length = secret.length := (hparts sh List.mem_cons_self).length_eq.symm
  rw [hpoly] at hw
  exact combineLoop_eq_ok hp hk hparts _ 0 [] w ((Nat.zero_add _).trans hlen) hw hloop

end Sys2Proof.Proofs
end

section
/-! PROOFS. What ERR can hold and when it changes (60_exceptions.md R210 to R216), and a CMD write beside the completion
of the command before it (R215). -/

namespace Sys2Proof.Machine

/-! ### The completion of a pending word -/

/-- `Execute(w)` takes the pending command away, and CMD, OVR and the inputs stay (R111, R112). -/
theorem execute_frame {w : Word} {s t : State} (h : execute w s = .next t) :
    t.pending = none ∧ t.cmd = s.cmd ∧ t.ovr = s.ovr ∧ t.inputs = s.inputs := by
  obtain ⟨t', ht', hend⟩ := execute_end w s
  obtain rfl : t' = t := Host.Outcome.next.inj (ht'.symm.trans h)
  rcases hend with ⟨c, rfl⟩ | ⟨i, hi, hend⟩
  · exact ⟨rfl, rfl, rfl, rfl⟩
  · obtain ⟨hpending, -⟩ := exec_idle ((execute_of_instr hi s).symm.trans h)
    obtain ⟨_, ⟨m, r, d, -, -⟩, heq⟩ := hend.shape
    refine ⟨hpending, ?_⟩
    rw [heq]
    exact ⟨rfl, rfl, rfl⟩

/-- The completion's turn with a word pending. -/
theorem step_completes {s : State} {w : Word} (hp : s.pending = some w) (he : s.arrives .completion) :
    ∃ t, step s = .next t ∧ t.pending = none ∧ t.cmd = s.cmd ∧ t.ovr = s.ovr ∧ t.inputs = s.inputs.tail := by
  obtain ⟨t, ht, -⟩ := execute_end w s.takeTurn
  refine ⟨t, ?_, execute_frame ht⟩
  rw [step_of_completionTurn (.inr he), completion_of_pending (s := s.takeTurn) hp, ht]

/-! ### ERR and RESULT -/

/-- No effect of a host write reaches ERR or RESULT (R216). -/
theorem WriteEffect.err_result {off : Nat} {n : Width} {v : Word} {s t : State} (h : WriteEffect off n v s t) :
    t.err = s.err ∧ t.result = s.result := by
  cases h <;> exact ⟨rfl, rfl⟩

end Sys2Proof.Machine

namespace Sys2Proof.Proofs

open Sys2Proof.Machine

/-- Settles O28: the write first finds BUSY = 1 and is dropped; the completion first leaves BUSY = 0, and the write
then issues its word. -/
theorem racingCmdWriteIsDroppedOrAccepted : Obligations.RacingCmdWriteIsDroppedOrAccepted := by
  intro s w v rest hp
  refine ⟨fun hin => ?_, fun hin => ?_⟩
  · have hdropped := (cmdWriteIssuesTheCommand s v (by rw [State.arrives, hin]; rfl)).2 (by simp [hp])
    obtain ⟨u, hu, hidle, hcmd, hovr, -⟩ := step_completes
      (s := { s.takeTurn with ovr := true, reply := some .done }) hp (by simp [State.arrives, hin])
    exact ⟨_, u, hdropped, hu, hp, hidle, hcmd, hovr⟩
  · obtain ⟨t, ht, hidle, -, hovr, hinputs⟩ := step_completes hp (by rw [State.arrives, hin]; rfl)
    have hissued := (cmdWriteIssuesTheCommand t v (by rw [State.arrives, hinputs, hin]; rfl)).1 hidle
    exact ⟨t, _, ht, hissued, hidle, rfl, rfl, hovr⟩

/-- Settles O29: `Complete(v)` puts 0 in ERR, and `raise` the value of its cause. -/
theorem onlyListedErrorsAreWritten : Obligations.OnlyListedErrorsAreWritten := by
  intro w s t h
  obtain ⟨u, ⟨v, hv⟩ | ⟨c, hc⟩, -⟩ := execute_complete_or_raise w s
  · obtain rfl := Host.Outcome.next.inj (hv.symm.trans h)
    rfl
  · obtain rfl := Host.Outcome.next.inj (hc.symm.trans h)
    exact c.err_listed

/-- Settles O30: a read changes no register, and no effect of a write reaches ERR or RESULT. -/
theorem errAndResultPersistUntilCompletion : Obligations.ErrAndResultPersistUntilCompletion := by
  intro s t off n v he hstep
  rcases he with he | he <;> rw [step_of_head he] at hstep <;> obtain rfl := Host.Outcome.next.inj hstep
  · rw [hostRead_shape]
    exact ⟨rfl, rfl⟩
  · obtain ⟨u, r, hu, heq⟩ := hostWrite_effect off n v s.takeTurn
    rw [heq]
    exact hu.err_result

end Sys2Proof.Proofs
end

section
/-! PROOFS. Reset (70_reset_and_hazards.md R250 to R252): the registers and the buffers it leaves, and that a pending
command is served, or discarded by a reset, in at most one step more than there are events at the inputs (R259). -/

namespace Sys2Proof.Machine

/-! ### The registers after a reset -/

/-- Every register's reset value (R250). -/
theorem regRead_reset (r : Reg) : regRead r State.reset = if r = .id then 0x47463031 else 0 := by
  cases r <;> decide

/-- A reset of the registers leaves the reset values in them, whatever becomes of the buffers (R250). -/
theorem regRead_resetRegs (r : Reg) (s : State) (m : Memory) :
    regRead r (s.resetRegs.setMem m) = regRead r State.reset := by
  cases r <;> rfl

/-- A reset, at power-on or later, is the reset of the registers with the buffers replaced (R250, R251). -/
theorem step_of_reset {s : State} {e : Event} (he : e = .rst ∨ e = .powerOn) (ha : s.arrives e) :
    ∃ m, step s = .next (s.takeTurn.resetRegs.setMem m) := by
  rcases he with rfl | rfl
  · exact ⟨_, step_of_head ha⟩
  · exact ⟨_, step_of_head ha⟩

/-! ### The buffers after a reset -/

theorem lookupCell_eq_none {l : List Host.Cell} {a : Nat} (h : ∀ c ∈ l, c.1 ≠ a) : lookupCell l a = none := by
  induction l with
  | nil => rfl
  | cons c rest ih =>
    obtain ⟨hc, hrest⟩ := List.forall_mem_cons.mp h
    rw [lookupCell, if_neg hc, ih hrest]

/-- A byte the memory does not list reads as the free value of its buffer's draw (R46). -/
theorem Memory.read_of_unlisted {m : Memory} {a : Nat} (h : ∀ c ∈ m.cells, c.1 ≠ a) :
    m.read a = Config.unwritten (if isOlenAddr a then m.olenGen else m.bufGen) a := by
  rw [Memory.read, lookupCell_eq_none h]
  rfl

/-- After a reset while BUSY every byte outside OLEN is of the next draw (R251). -/
theorem Memory.read_redrawByteBufs_other (m : Memory) {a : Nat} (ha : isOlenAddr a = false) :
    m.redrawByteBufs.read a = Config.unwritten (m.bufGen + 1) a := by
  rw [Memory.read_of_unlisted, ha]
  · rfl
  · rintro c hc rfl
    exact Bool.eq_false_iff.mp ha (List.mem_filter.mp hc).2

/-- After power-on every byte is of its buffer's next draw (R46, R251). -/
theorem Memory.read_redrawAll (m : Memory) (a : Nat) :
    m.redrawAll.read a = Config.unwritten (if isOlenAddr a then m.olenGen + 1 else m.bufGen + 1) a :=
  rfl

theorem isOlenAddr_eq_false_iff (a : Nat) : isOlenAddr a = false ↔ a < 0x800 ∨ 0xC00 ≤ a := by
  rw [Bool.eq_false_iff, Ne, isOlenAddr_iff]
  omega

/-! ### Runs -/

/-- A run of one step more, its first step known. -/
theorem run_succ_of_step {M : Host.Core} {s t : M.State} (h : M.step s = .next t) (k : Nat) :
    M.run (k + 1) s = M.run k t := by
  rw [Host.Core.run, h]

/-- A run of one step more, its last step known. -/
theorem run_succ_of_run {M : Host.Core} {k : Nat} {s u t : M.State} (hrun : M.run k s = .next u)
    (h : M.step u = .next t) : M.run (k + 1) s = .next t := by
  induction k generalizing s with
  | zero =>
    obtain rfl : s = u := Host.Outcome.next.inj hrun
    exact run_succ_of_step h 0
  | succ k ih =>
    cases hv : M.step s with
    | next v =>
      rw [run_succ_of_step hv] at hrun ⊢
      exact ih hrun
    | fault _ | refused _ => simp [Host.Core.run, hv] at hrun

/-! ### The events and a pending command -/

/-- The events after which no command is pending: the completion, and the two resets that discard it. The others are
host accesses. -/
def Event.endsPending : Event → Bool
  | .completion => true
  | .rst => true
  | .powerOn => true
  | .read _ _ => false
  | .write _ _ _ => false

theorem serve_of_endsPending {e : Event} (he : e.endsPending = true) (s : State) :
    ∃ t, serve e s = .next t ∧ t.pending = none := by
  cases e with
  | completion =>
    cases hp : s.pending with
    | none => exact ⟨s, completion_of_idle hp, hp⟩
    | some w =>
      obtain ⟨t, ht, -⟩ := execute_end w s
      exact ⟨t, (completion_of_pending hp).trans ht, (execute_frame ht).1⟩
  | rst => exact ⟨_, rfl, rfl⟩
  | powerOn => exact ⟨_, rfl, rfl⟩
  | read _ _ | write _ _ _ => simp [Event.endsPending] at he

/-- A write finds BUSY = 1 while a command is pending, so the one that would issue a command has no effect (R80). -/
theorem WriteEffect.pending_inputs {off : Nat} {n : Width} {v w : Word} {s t : State} (h : WriteEffect off n v s t)
    (hp : s.pending = some w) : t.pending = some w ∧ t.inputs = s.inputs := by
  cases h with
  | issue hidle => simp [State.busy, hp] at hidle
  | _ => exact ⟨hp, rfl⟩

/-- A host access leaves a pending command pending. -/
theorem serve_access_of_pending {e : Event} {s : State} {w : Word} (he : e.endsPending = false)
    (hp : s.pending = some w) : ∃ t, serve e s = .next t ∧ t.pending = some w ∧ t.inputs = s.inputs := by
  cases e with
  | read off n =>
    refine ⟨_, rfl, ?_⟩
    rw [hostRead_shape]
    exact ⟨hp, rfl⟩
  | write off n v =>
    refine ⟨_, rfl, ?_⟩
    obtain ⟨u, r, hu, heq⟩ := hostWrite_effect off n v s
    rw [heq]
    exact hu.pending_inputs hp
  | completion | rst | powerOn => simp [Event.endsPending] at he

/-- An event that is next and is not the completion's turn is at the inputs. -/
theorem State.nextEvent_mem {s : State} (h : s.nextEvent ≠ .completion) : s.nextEvent ∈ s.inputs := by
  rw [State.nextEvent] at h ⊢
  cases hin : s.inputs with
  | nil => simp [hin] at h
  | cons e es => simp

/-- A pending command stays pending over the host accesses before the first event that ends it, which is the
completion's turn when no other is left (R259). -/
theorem pending_until_its_end {s : State} {w : Word} (hp : s.pending = some w) :
    ∃ (k : Nat) (u : State), k ≤ s.inputs.length ∧ Sys2Proof.core.run k s = .next u ∧ u.pending = some w ∧
      u.inputs <:+ s.inputs ∧ u.nextEvent.endsPending = true := by
  generalize hes : s.inputs = es
  induction es generalizing s with
  | nil => exact ⟨0, s, Nat.le_refl 0, rfl, hp, hes ▸ List.suffix_refl _, by rw [State.nextEvent, hes]; rfl⟩
  | cons e es ih =>
    have hnext : s.nextEvent = e := by rw [State.nextEvent, hes]; rfl
    cases he : e.endsPending with
    | true => exact ⟨0, s, Nat.zero_le _, rfl, hp, hes ▸ List.suffix_refl _, hnext ▸ he⟩
    | false =>
      obtain ⟨t, ht, htp, htin⟩ := serve_access_of_pending (s := s.takeTurn) he hp
      have hstep : step s = .next t := by rw [step, hnext, ht]
      obtain ⟨k, u, hk, hrun, hup, hsuffix, hend⟩ := ih htp (by rw [htin, State.takeTurn_inputs, hes, List.tail_cons])
      exact ⟨k + 1, u, Nat.succ_le_succ hk, (run_succ_of_step (M := Sys2Proof.core) hstep k).trans hrun, hup,
        hsuffix.trans (List.suffix_cons e es), hend⟩

end Sys2Proof.Machine

namespace Sys2Proof.Proofs

open Sys2Proof.Machine

/-- Settles O6: after each reset the registers read as in `State.reset`. -/
theorem resetSetsEveryRegister : Obligations.ResetSetsEveryRegister := by
  refine ⟨regRead_reset, rfl, rfl, fun s e he ha => ?_⟩
  obtain ⟨m, hm⟩ := step_of_reset he ha
  exact ⟨_, hm, fun r => (regRead_resetRegs r _ m).trans (regRead_reset r), rfl, rfl, rfl, rfl, rfl, rfl, fun _ => rfl⟩

/-- Settles O7: the buffers stay, lose what MAT, CONST and ROWLEN hold, or lose everything. -/
theorem resetKeepsOrRedrawsTheBuffers : Obligations.ResetKeepsOrRedrawsTheBuffers := by
  intro s
  refine ⟨fun ha hidle => ⟨_, step_of_head ha, fun a => ?_⟩, fun ha hbusy => ⟨_, step_of_head ha, rfl, ?_⟩,
    fun ha => ⟨_, step_of_head ha, ?_⟩⟩
  · rw [State.rst_mem, State.takeTurn_pending, hidle]
    rfl
  · rw [State.rst_mem, State.takeTurn_pending, if_pos (Option.isSome_iff_ne_none.mpr hbusy)]
    exact ⟨fun a hlo hhi => s.mem.read_redrawByteBufs_olen ((isOlenAddr_iff a).mpr ⟨hlo, hhi⟩),
      fun a ha => s.mem.read_redrawByteBufs_other ((isOlenAddr_eq_false_iff a).mpr ha)⟩
  · rw [State.powerOn_mem, State.takeTurn_mem]
    refine ⟨fun a hlo hhi => ?_, fun a ha => ?_⟩
    · rw [Memory.read_redrawAll, if_pos ((isOlenAddr_iff a).mpr ⟨hlo, hhi⟩)]
    · rw [Memory.read_redrawAll, (isOlenAddr_eq_false_iff a).mpr ha]
      rfl

/-- Settles O27: the run reaches the event that ends the command, which is the completion's turn when no reset is at
the inputs. -/
theorem pendingCommandIsServed : Obligations.PendingCommandIsServed := by
  intro s w hp
  obtain ⟨k, u, hk, hrun, hup, hsuffix, hend⟩ := pending_until_its_end hp
  obtain ⟨t, ht, hidle⟩ := serve_of_endsPending hend u.takeTurn
  refine ⟨⟨k + 1, t, Nat.succ_le_succ hk, run_succ_of_run (M := Sys2Proof.core) hrun ht, hidle⟩, fun hrst hpow => ?_⟩
  have hturn : u.nextEvent = .completion := by
    by_contra hne
    have hmem := hsuffix.subset (State.nextEvent_mem hne)
    cases he : u.nextEvent with
    | completion => exact hne he
    | rst => exact hrst (he ▸ hmem)
    | powerOn => exact hpow (he ▸ hmem)
    | read _ _ | write _ _ _ => simp [he, Event.endsPending] at hend
  have hexecute : step u = execute w u.takeTurn := by
    rw [step, hturn]
    exact completion_of_pending hup
  exact ⟨k, u, t, hk, hrun, hup, hexecute, ht, hidle⟩

/-- Settles O25: nothing is pending, written or in error, the session is IDLE and POLY is the default. -/
theorem resetStateIsLegal : Obligations.ResetStateIsLegal where
  memory := ⟨List.Pairwise.nil, nofun⟩
  poly := by decide
  pending := .of_none rfl
  session := .of_idle rfl (Nat.le_refl 0)
  errListed := rfl
  resultOnError h := absurd rfl h

end Sys2Proof.Proofs
end
